-- ==== Sys2Proof/Word.lean ====
section
/-! DEFINITION. The word types of XXH-CORE and the byte sequence (00_scope.md R10, R11: every value is unsigned, bit 0 is
the least significant; a byte is 8 bits everywhere, 10_state.md R36). -/

namespace Sys2Proof

/-- Eight bits: the unit of the command stream, of a payload and of a pending buffer. -/
abbrev Byte := BitVec 8

/-- A byte sequence, index 0 first (00_scope.md R11). -/
abbrev Bytes := List Byte

/-- The lane, seed and digest width of the XXH32 engine (00_scope.md R8). -/
abbrev Word32 := BitVec 32

/-- The lane, seed and digest width of the XXH64 engine, and of `totalLength`, `IMM` and a response's value. -/
abbrev Word64 := BitVec 64

/-- One command descriptor read as the 128-bit number `D` of 30_encoding.md R71. -/
abbrev Descriptor := BitVec 128

end Sys2Proof
end

