-- ==== Sys2Proof/Machine/Bytes.lean ====
section
/-! DEFINITION. Byte order, settled once: a byte sequence as a little-endian number and back (20_memory.md R50, R51;
30_encoding.md R71). -/

namespace Sys2Proof.Machine

/-- The number a byte sequence spells, least significant byte first: `sum over k of 2^(8k) * s[k]` (20_memory.md R51). -/
def leNat : Bytes → Nat
  | [] => 0
  | b :: bs => b.toNat + 2 ^ 8 * leNat bs

/-- The low `n` bytes of a number, least significant byte first. -/
def leBytes : Nat → Nat → Bytes
  | 0, _ => []
  | n + 1, x => BitVec.ofNat 8 x :: leBytes n (x / 2 ^ 8)

end Sys2Proof.Machine
end

