-- ==== Sys2Proof/Syntax.lean ====
section
/-! DEFINITION. The twelve commands of XXH-CORE, one constructor per row of spec/opcode_table.json (30_encoding.md R73).
An `Instr` is what a descriptor says; the payload of UPD and HASH follows it in the stream and is data (R76). A slot index
is a number (R79, unsigned 8 bits: WellFormed.lean); `LEN` and `IMM` are the bit fields of R71, of which commands take
slices. -/

namespace Sys2Proof

/-- A decoded command descriptor, with exactly the fields the command uses (30_encoding.md R73). -/
inductive Instr where
  /-- `INIT32 c, seed` -/
  | init32 (ctx : Nat) (imm : Word64)
  /-- `INIT64 c, seed` -/
  | init64 (ctx : Nat) (imm : Word64)
  /-- `UPD32 c, <bytes>` -/
  | upd32 (ctx : Nat) (len : BitVec 32)
  /-- `UPD64 c, <bytes>` -/
  | upd64 (ctx : Nat) (len : BitVec 32)
  /-- `DIG32 c` -/
  | dig32 (ctx : Nat)
  /-- `DIG64 c` -/
  | dig64 (ctx : Nat)
  /-- `CPY32 cd, cs`: destination, then source -/
  | cpy32 (ctx : Nat) (src : Nat)
  /-- `CPY64 cd, cs`: destination, then source -/
  | cpy64 (ctx : Nat) (src : Nat)
  /-- `HASH32 seed, <bytes>` -/
  | hash32 (len : BitVec 32) (imm : Word64)
  /-- `HASH64 seed, <bytes>` -/
  | hash64 (len : BitVec 32) (imm : Word64)
  /-- `INFO32` -/
  | info32
  /-- `INFO64` -/
  | info64
  deriving DecidableEq, Repr

/-- The mnemonic of a command, as the opcode table spells it (30_encoding.md R73). -/
def Instr.mnemonic : Instr → String
  | .init32 _ _ => "INIT32"
  | .init64 _ _ => "INIT64"
  | .upd32 _ _ => "UPD32"
  | .upd64 _ _ => "UPD64"
  | .dig32 _ => "DIG32"
  | .dig64 _ => "DIG64"
  | .cpy32 _ _ => "CPY32"
  | .cpy64 _ _ => "CPY64"
  | .hash32 _ _ => "HASH32"
  | .hash64 _ _ => "HASH64"
  | .info32 => "INFO32"
  | .info64 => "INFO64"

end Sys2Proof
end

