-- ==== Sys2Proof/Config.lean ====
section
/-! DEFINITION. What an implementation of XXH-CORE fixes: the bounds of the parameters (00_scope.md R9) and the shape the
two engines share (40_block_mixer.md R112; 00_scope.md R8). The values of the constants stand in Machine/Constants.lean.
No free value is needed: nothing a command can read is left open by the spec (INVENTORY.md). -/

namespace Sys2Proof

/-- `DESC_BYTES`: bytes in a command descriptor (00_scope.md R9; 30_encoding.md R70). -/
abbrev Config.descBytes : Nat := 16

/-- `MAXLEN`: the largest payload of one UPD or HASH command (00_scope.md R9; 30_encoding.md R76). -/
abbrev Config.maxLen : Nat := 2 ^ 32 - 1

/-- The least `NCTX` (00_scope.md R9). -/
abbrev Config.minNctx : Nat := 1

/-- The greatest `NCTX`, fixed by the 8-bit index fields (00_scope.md R9). -/
abbrev Config.maxNctx : Nat := 256

/-- The one algorithm shape both engines instantiate at lane width `w` (40_block_mixer.md R112): constants, rotate amount
of the round, block size, and the attributes of 10_state.md R35. -/
structure Engine (w : Nat) where
  /-- `PRIME_1` -/
  prime1 : BitVec w
  /-- `PRIME_2` -/
  prime2 : BitVec w
  /-- `PRIME_3` -/
  prime3 : BitVec w
  /-- `PRIME_4` -/
  prime4 : BitVec w
  /-- `PRIME_5` -/
  prime5 : BitVec w
  /-- `R_ROUND`, the rotate amount of the round function -/
  rRound : Nat
  /-- `BLOCK`, the block size in bytes (`block_size`) -/
  block : Nat
  /-- `DIGEST_SIZE` in bytes (`digest_size`) -/
  digestSize : Nat
  /-- `name`, five ASCII characters, the first one first -/
  name : Bytes
  deriving DecidableEq, Repr

end Sys2Proof
end

