-- ==== Sys2Proof/WellFormed.lean ====
section
/-! DEFINITION. Which terms of `Instr` a descriptor can spell: a slot index must fit its 8-bit field (30_encoding.md R71,
R79). `LEN` and `IMM` fit by their types. Whether an index is below `NCTX` is no part of this: that is checked when the
command executes (R81). -/

namespace Sys2Proof

/-- The index fits the 8-bit `CTX` or `SRC` field. -/
abbrev fitsIndexField (c : Nat) : Prop := c < 2 ^ 8

/-- The command can be written as a descriptor. -/
abbrev Instr.WellFormed : Instr → Prop
  | .init32 ctx _ => fitsIndexField ctx
  | .init64 ctx _ => fitsIndexField ctx
  | .upd32 ctx _ => fitsIndexField ctx
  | .upd64 ctx _ => fitsIndexField ctx
  | .dig32 ctx => fitsIndexField ctx
  | .dig64 ctx => fitsIndexField ctx
  | .cpy32 ctx src => fitsIndexField ctx ∧ fitsIndexField src
  | .cpy64 ctx src => fitsIndexField ctx ∧ fitsIndexField src
  | .hash32 _ _ => True
  | .hash64 _ _ => True
  | .info32 => True
  | .info64 => True

end Sys2Proof
end

