-- ==== Sys2Proof/Decode.lean ====
section
/-! DEFINITION. The decoder, total on any byte sequence, rejecting by name (30_encoding.md R71, R73, R74, R80, R81), and
the encoder, written from the same field table. -/

namespace Sys2Proof

/-- Why bytes are no command. All but `incomplete` are the one IllegalCommand of 60_exceptions.md R192. -/
inductive DecodeError where
  /-- fewer than the 16 bytes of a descriptor: the sequencer waits (60_exceptions.md R202) -/
  | incomplete
  /-- `OP` is `0x00` or in `0x07 .. 0xFF` (30_encoding.md R80) -/
  | reservedOp
  /-- `RSV` is not 0 -/
  | reservedBits
  /-- a must-be-zero field of 30_encoding.md R73 is not 0 -/
  | nonZeroField
  deriving DecidableEq, Repr

/-- `OP = D[7:0]` -/
def fieldOp (d : Descriptor) : BitVec 8 := d.extractLsb' 0 8
/-- `W = D[8]`: 0 is XXH32, 1 is XXH64 -/
def fieldW (d : Descriptor) : BitVec 1 := d.extractLsb' 8 1
/-- `RSV = D[15:9]` -/
def fieldRsv (d : Descriptor) : BitVec 7 := d.extractLsb' 9 7
/-- `CTX = D[23:16]` -/
def fieldCtx (d : Descriptor) : BitVec 8 := d.extractLsb' 16 8
/-- `SRC = D[31:24]` -/
def fieldSrc (d : Descriptor) : BitVec 8 := d.extractLsb' 24 8
/-- `LEN = D[63:32]` -/
def fieldLen (d : Descriptor) : BitVec 32 := d.extractLsb' 32 32
/-- `IMM = D[127:64]` -/
def fieldImm (d : Descriptor) : Word64 := d.extractLsb' 64 64

/-- The operation codes of 30_encoding.md R73. -/
def opInit : BitVec 8 := 0x01#8
def opUpd : BitVec 8 := 0x02#8
def opDig : BitVec 8 := 0x03#8
def opCpy : BitVec 8 := 0x04#8
def opHash : BitVec 8 := 0x05#8
def opInfo : BitVec 8 := 0x06#8

/-- The command when its must-be-zero fields are zero: the engine's form by `W` (30_encoding.md R73). -/
def whenZero (zero : Bool) (w : BitVec 1) (i32 i64 : Instr) : Except DecodeError Instr :=
  if zero then .ok (if w = 0#1 then i32 else i64) else .error .nonZeroField

/-- The command a 128-bit descriptor spells (30_encoding.md R81). -/
def decodeWord (d : Descriptor) : Except DecodeError Instr :=
  let op := fieldOp d
  let w := fieldW d
  let ctx := fieldCtx d
  let src := fieldSrc d
  let len := fieldLen d
  let imm := fieldImm d
  if fieldRsv d ≠ 0#7 then .error .reservedBits
  else if op = opInit then
    whenZero (src = 0#8 ∧ len = 0#32) w (.init32 ctx.toNat imm) (.init64 ctx.toNat imm)
  else if op = opUpd then
    whenZero (src = 0#8 ∧ imm = 0#64) w (.upd32 ctx.toNat len) (.upd64 ctx.toNat len)
  else if op = opDig then
    whenZero (src = 0#8 ∧ len = 0#32 ∧ imm = 0#64) w (.dig32 ctx.toNat) (.dig64 ctx.toNat)
  else if op = opCpy then
    whenZero (len = 0#32 ∧ imm = 0#64) w (.cpy32 ctx.toNat src.toNat) (.cpy64 ctx.toNat src.toNat)
  else if op = opHash then
    whenZero (ctx = 0#8 ∧ src = 0#8) w (.hash32 len imm) (.hash64 len imm)
  else if op = opInfo then
    whenZero (ctx = 0#8 ∧ src = 0#8 ∧ len = 0#32 ∧ imm = 0#64) w .info32 .info64
  else .error .reservedOp

/-- The descriptor in the first 16 bytes, `D = sum over k of 2^(8k) * B_k` (30_encoding.md R71). -/
def descriptorOf (bytes : Bytes) : Descriptor := BitVec.ofNat 128 (Machine.leNat (bytes.take Config.descBytes))

/-- Read one command from the front of a byte sequence: the command and the bytes after its descriptor. -/
def decode (bytes : Bytes) : Except DecodeError (Instr × Bytes) :=
  if bytes.length < Config.descBytes then .error .incomplete
  else
    match decodeWord (descriptorOf bytes) with
    | .ok i => .ok (i, bytes.drop Config.descBytes)
    | .error e => .error e

/-- The fields laid out as 30_encoding.md R71 lays them out, `RSV = 0`. -/
def packFields (op : BitVec 8) (w : BitVec 1) (ctx src : Nat) (len : BitVec 32) (imm : Word64) : Descriptor :=
  imm ++ len ++ BitVec.ofNat 8 src ++ BitVec.ofNat 8 ctx ++ 0#7 ++ w ++ op

/-- The descriptor of a command, every field it does not use being 0 (30_encoding.md R73). -/
def encodeWord : Instr → Descriptor
  | .init32 ctx imm => packFields opInit 0#1 ctx 0 0#32 imm
  | .init64 ctx imm => packFields opInit 1#1 ctx 0 0#32 imm
  | .upd32 ctx len => packFields opUpd 0#1 ctx 0 len 0#64
  | .upd64 ctx len => packFields opUpd 1#1 ctx 0 len 0#64
  | .dig32 ctx => packFields opDig 0#1 ctx 0 0#32 0#64
  | .dig64 ctx => packFields opDig 1#1 ctx 0 0#32 0#64
  | .cpy32 ctx src => packFields opCpy 0#1 ctx src 0#32 0#64
  | .cpy64 ctx src => packFields opCpy 1#1 ctx src 0#32 0#64
  | .hash32 len imm => packFields opHash 0#1 0 0 len imm
  | .hash64 len imm => packFields opHash 1#1 0 0 len imm
  | .info32 => packFields opInfo 0#1 0 0 0#32 0#64
  | .info64 => packFields opInfo 1#1 0 0 0#32 0#64

/-- The sixteen descriptor bytes of a command, `B0` first. -/
def encode (i : Instr) : Bytes := Machine.leBytes Config.descBytes (encodeWord i).toNat

/-- `LEN` of a command that a payload follows, 0 for the others (30_encoding.md R76). -/
def payloadLength : Instr → Nat
  | .init32 _ _ => 0
  | .init64 _ _ => 0
  | .upd32 _ len => len.toNat
  | .upd64 _ len => len.toNat
  | .dig32 _ => 0
  | .dig64 _ => 0
  | .cpy32 _ _ => 0
  | .cpy64 _ _ => 0
  | .hash32 len _ => len.toNat
  | .hash64 len _ => len.toNat
  | .info32 => 0
  | .info64 => 0

/-- The 16 bytes of a descriptor of `nbits` bits `w`, bit 0 the least significant bit of `B0`, every bit above `nbits` 0. -/
def tableBytes (nbits w : Nat) : Bytes := Machine.leBytes Config.descBytes (w % 2 ^ nbits)

/-- The command the decoder reads from an opcode-table row's bits. -/
def decodeTableWord (nbits w : Nat) : Option Instr :=
  match decode (tableBytes nbits w) with
  | .ok (i, _) => some i
  | .error _ => none

end Sys2Proof
end

