-- ==== Sys2Proof/Machine/Constants.lean ====
section
/-! DEFINITION. The constants of the two engines (40_block_mixer.md R100, R101; 00_scope.md R8; 10_state.md R35) and the
number of slots the machine of `State.reset` has. -/

namespace Sys2Proof.Machine

/-- The XXH32 engine (40_block_mixer.md R100). -/
def xxh32 : Engine 32 where
  prime1 := 2654435761#32
  prime2 := 2246822519#32
  prime3 := 3266489917#32
  prime4 := 668265263#32
  prime5 := 374761393#32
  rRound := 13
  block := 16
  digestSize := 4
  name := [0x58#8, 0x58#8, 0x48#8, 0x33#8, 0x32#8]

/-- The XXH64 engine (40_block_mixer.md R101). PRESUMED: `prime3` and `prime4` are values R101 itself marks as general
knowledge (notes/assumptions/3.md). -/
def xxh64 : Engine 64 where
  prime1 := 11400714785074694791#64
  prime2 := 14029467366897019727#64
  prime3 := 1609587929392839161#64
  prime4 := 9650029242287828579#64
  prime5 := 2870177450012600261#64
  rRound := 31
  block := 32
  digestSize := 8
  name := [0x58#8, 0x58#8, 0x48#8, 0x36#8, 0x34#8]

/-- DESIGN CHOICE: `NCTX` of the machine `State.reset` describes, the value the programs of 95_test_vectors.md section 11
are written for. `NCTX` is OPEN (00_scope.md R9): every meaning reads it from the state (notes/assumptions/1.md). -/
def nctxAtReset : Nat := 2

end Sys2Proof.Machine
end

