-- ==== Sys2Proof/Machine/State.lean ====
section
/-! DEFINITION. The state of XXH-CORE as plain data (10_state.md), with what the host feeds in and reads out: the
unconsumed command stream, the reset request, the responses. -/

namespace Sys2Proof.Machine

/-- The four accumulators `v[0..3]` of a Hash State (10_state.md R22). -/
structure Lanes (w : Nat) where
  lane0 : BitVec w
  lane1 : BitVec w
  lane2 : BitVec w
  lane3 : BitVec w
  deriving DecidableEq, Repr

/-- One Hash State of lane width `w` (10_state.md R21 to R24). `buf` is the source's `pendingBuffer`, the bytes
`buf[0..bufLen)`, oldest first; DESIGN CHOICE: a list, as R24 allows, its length being `bufLen` (notes/assumptions/5.md). -/
structure HashState (w : Nat) where
  seed : BitVec w
  v : Lanes w
  totalLength : Word64
  buf : Bytes
  deriving DecidableEq, Repr

/-- One context slot: a Hash State and the `valid` bit that says whether it holds a constructed one (10_state.md R20, R26). -/
structure Slot (w : Nat) where
  valid : Bool
  st : HashState w
  deriving DecidableEq, Repr

/-- The command whose payload is being consumed, `PAYLOAD(op, w, c, ..)` of 10_state.md R31. A HASH carries the working
Hash State it builds (43_oneshot.md R174), which exists only while its payload is consumed. -/
inductive Job where
  | upd32 (ctx : Nat)
  | upd64 (ctx : Nat)
  | hash32 (work : HashState 32)
  | hash64 (work : HashState 64)
  deriving DecidableEq, Repr

/-- The sequencer's control state (10_state.md R31). -/
inductive Phase where
  /-- `IDLE`: waiting for the 16 bytes of the next descriptor -/
  | idle
  /-- `PAYLOAD`: `remaining` payload bytes are still to come -/
  | payload (job : Job) (remaining : Nat)
  /-- `HALTED`: a fault was taken; nothing is consumed until reset -/
  | halted
  deriving DecidableEq, Repr

/-- One response record (10_state.md R33). -/
structure Response where
  status : BitVec 8
  value : Word64
  deriving DecidableEq, Repr

/-- The fault causes of 60_exceptions.md R190. Taking one is a next state (R200), not a stop of the model. -/
inductive Cause where
  | invalidArgument
  | illegalCommand
  | badContext
  | contextInvalid
  | lengthOverflow
  deriving DecidableEq, Repr

/-- Why a step has no next state. -/
inductive Fault where
  /-- Raised by `step` alone, when `phase = HALTED` and no reset is requested: "The sequencer consumes no further stream
  byte and produces no further response" (60_exceptions.md R201; 93_implementation_defined.md U17, stuck). Safe: the model
  stops where the hardware stands still. -/
  | halted
  deriving DecidableEq, Repr

/-- What the model refuses. -/
inductive Refusal where
  /-- An arm of `exec` with no meaning yet, by its mnemonic; no arm raises it in this model. Safe. -/
  | notModelled (mnemonic : String)
  deriving DecidableEq, Repr

/-- The machine (10_state.md). -/
structure State where
  /-- the XXH32 context file; its length is `NCTX` (R20) -/
  ctx32 : List (Slot 32)
  /-- the XXH64 context file; its length is `NCTX` (R20) -/
  ctx64 : List (Slot 64)
  /-- the sequencer's control state (R31) -/
  phase : Phase
  /-- the `FAULT` register (R32) -/
  fault : BitVec 8
  /-- command-stream bytes consumed since reset (R30) -/
  pos : Nat
  /-- commands responded to since reset (R30) -/
  seq : Nat
  /-- command-stream bytes the host has supplied and the sequencer has not consumed (R36) -/
  stream : Bytes
  /-- MODEL'S OWN: every response produced, oldest first; the hardware keeps none (R33; notes/assumptions/7.md) -/
  responses : List Response
  /-- MODEL'S OWN: the host asserts reset (70_reset_and_hazards.md R220; notes/assumptions/8.md) -/
  resetRequest : Bool
  deriving DecidableEq, Repr

/-- DESIGN CHOICE: the contents of a slot after reset, which the spec leaves unspecified and no command can read, since
`valid = 0` (10_state.md R40; notes/assumptions/2.md). -/
def HashState.blank (w : Nat) : HashState w := ⟨0#w, ⟨0#w, 0#w, 0#w, 0#w⟩, 0#64, []⟩

/-- A slot after reset: not valid (10_state.md R40). -/
def Slot.blank (w : Nat) : Slot w := ⟨false, HashState.blank w⟩

/-- The machine with `nctx` slots per engine right after reset (10_state.md R40). -/
def State.resetWith (nctx : Nat) : State where
  ctx32 := List.replicate nctx (Slot.blank 32)
  ctx64 := List.replicate nctx (Slot.blank 64)
  phase := .idle
  fault := 0#8
  pos := 0
  seq := 0
  stream := []
  responses := []
  resetRequest := false

/-- The machine right after reset. -/
def State.reset : State := State.resetWith nctxAtReset

end Sys2Proof.Machine
end

