-- ==== Sys2Proof/Machine/Flags.lean ====
section
/-! DEFINITION. XXH-CORE has no condition codes and no arithmetic flags (10_state.md R34; 40_block_mixer.md R103). What
stands in their place are two predicates, computed each time and never stored. -/

namespace Sys2Proof.Machine

/-- `large = (totalLength >= BLOCK)`, on the full 64-bit counter: the Finalizer's long-input path (10_state.md R34;
42_finalizer.md R140). -/
def large {w : Nat} (E : Engine w) (st : HashState w) : Bool := decide (E.block ≤ st.totalLength.toNat)

/-- `totalLength + LEN >= 2^64` as an exact sum: the cause of LengthOverflow (60_exceptions.md R195). -/
def lengthOverflows (totalLength : Word64) (len : BitVec 32) : Bool :=
  decide (2 ^ 64 ≤ totalLength.toNat + len.toNat)

end Sys2Proof.Machine
end

