-- ==== Sys2Proof/Machine/Operands.lean ====
section
/-! DEFINITION. Operand forms: the read primitives over byte sequences (20_memory.md R51, R52) and the seed operand
(30_encoding.md R77). -/

namespace Sys2Proof.Machine

/-- `readU8(s, p)` for `p + 1 <= len(s)` (20_memory.md R51). DESIGN CHOICE: 0 past the end, where R51 defines no result and no
command reads (notes/assumptions/19.md). -/
def readU8 (s : Bytes) (p : Nat) : Byte := s.getD p 0#8

/-- `readLE32`, `readLE64`: the `w`-bit word at byte offset `p`, lowest offset least significant, for `p + w/8 <= len(s)`
(20_memory.md R51). DESIGN CHOICE: past the end, where R51 defines no result and no command reads, the sum of the bytes there
are, as if zeros followed (notes/assumptions/19.md). -/
def readLE (w : Nat) (s : Bytes) (p : Nat) : BitVec w := BitVec.ofNat w (leNat ((s.drop p).take (w / 8)))

/-- `word_i(blk)`: the four words tile the block, word `i` at byte offset `WORD * i` (20_memory.md R52). -/
def blockWord (w : Nat) (blk : Bytes) (i : Nat) : BitVec w := readLE w blk (w / 8 * i)

/-- The XXH32 seed operand: `IMM[31:0]` if `IMM[63:32] = 0`, otherwise none, the source's InvalidArgument (30_encoding.md
R77; 60_exceptions.md R191). -/
def seedOperand32 (imm : Word64) : Option Word32 :=
  if imm.extractLsb' 32 32 = 0#32 then some (imm.extractLsb' 0 32) else none

/-- The XXH64 seed operand: every `IMM` is a seed (30_encoding.md R77). -/
def seedOperand64 (imm : Word64) : Word64 := imm

end Sys2Proof.Machine
end

