-- ==== Sys2Proof/Machine/Mixer.lean ====
section
/-! DEFINITION. The Block Mixer and the arithmetic every other file uses (40_block_mixer.md R102 to R112). All arithmetic
is `BitVec` arithmetic, modular on the lane width (R103, R104). -/

namespace Sys2Proof.Machine

/-- `rotl_W(x, r)`: the circular left rotate, for `0 < r < W` (40_block_mixer.md R102). DESIGN CHOICE: for other `r`, which R102
says never occur, whatever the two shifts give (notes/assumptions/19.md). -/
def rotl {w : Nat} (x : BitVec w) (r : Nat) : BitVec w := (x <<< r) ||| (x >>> (w - r))

/-- `round_W(acc, input)` (40_block_mixer.md R107, R108). -/
def round {w : Nat} (E : Engine w) (acc input : BitVec w) : BitVec w :=
  rotl (acc + input * E.prime2) E.rRound * E.prime1

/-- `mix_W(v, blk)`: lane `i` takes word `i` of the block and nothing else (40_block_mixer.md R109 to R111). -/
def mix {w : Nat} (E : Engine w) (v : Lanes w) (blk : Bytes) : Lanes w where
  lane0 := round E v.lane0 (blockWord w blk 0)
  lane1 := round E v.lane1 (blockWord w blk 1)
  lane2 := round E v.lane2 (blockWord w blk 2)
  lane3 := round E v.lane3 (blockWord w blk 3)

end Sys2Proof.Machine
end

