-- ==== Sys2Proof/Machine/HashState.lean ====
section
/-! DEFINITION. The Hash State machine: construction and update as pure functions (41_hash_state.md R120, R125), and the
byte-serial machine of R130. -/

namespace Sys2Proof.Machine

/-- The construction lanes (41_hash_state.md R120). -/
def initLanes {w : Nat} (E : Engine w) (seed : BitVec w) : Lanes w where
  lane0 := seed + E.prime1 + E.prime2
  lane1 := seed + E.prime2
  lane2 := seed
  lane3 := seed - E.prime1

/-- `init_W(seed)` (41_hash_state.md R120). -/
def initState {w : Nat} (E : Engine w) (seed : BitVec w) : HashState w where
  seed := seed
  v := initLanes E seed
  totalLength := 0#64
  buf := []

/-- Fold `n` blocks from the front of a byte sequence, in message order. -/
def foldBlocks {w : Nat} (E : Engine w) : Nat → Lanes w → Bytes → Lanes w × Bytes
  | 0, v, a => (v, a)
  | n + 1, v, a => foldBlocks E n (mix E v (a.take E.block)) (a.drop E.block)

/-- `fold_W(v, a)`: fold `floor(len(a) / BLOCK)` blocks, and what is left (41_hash_state.md R125). -/
def fold {w : Nat} (E : Engine w) (v : Lanes w) (a : Bytes) : Lanes w × Bytes :=
  foldBlocks E (a.length / E.block) v a

/-- Steps 1, 3 and 4 of `update`: append the bytes to the pending ones, fold every full block, keep the rest. `totalLength`
is advanced apart from them, at descriptor acceptance (41_hash_state.md R130). -/
def feed {w : Nat} (E : Engine w) (st : HashState w) (bytes : Bytes) : HashState w :=
  { st with
    v := (fold E st.v (st.buf ++ bytes)).1
    buf := (fold E st.v (st.buf ++ bytes)).2 }

/-- Step 2 of `update`: `totalLength += n` (41_hash_state.md R125, R130). -/
def advance {w : Nat} (st : HashState w) (n : Word64) : HashState w :=
  { st with totalLength := st.totalLength + n }

/-- `absorb_W(st, bytes)` (41_hash_state.md R125). -/
def absorb {w : Nat} (E : Engine w) (st : HashState w) (bytes : Bytes) : HashState w :=
  feed E (advance st (BitVec.ofNat 64 bytes.length)) bytes

/-- One payload byte of the byte-serial machine: `BufAppend`, then fold when the buffer is full (41_hash_state.md R130). -/
def pushByte {w : Nat} (E : Engine w) (st : HashState w) (b : Byte) : HashState w :=
  if (st.buf ++ [b]).length = E.block then
    { st with v := mix E st.v (st.buf ++ [b]), buf := [] }
  else { st with buf := st.buf ++ [b] }

end Sys2Proof.Machine
end

