-- ==== Sys2Proof/Machine/Finalizer.lean ====
section
/-! DEFINITION. The Finalizer, given per width (40_block_mixer.md R112; 42_finalizer.md R140 to R160), the one-shot digest
(43_oneshot.md R170), and a digest as bytes and as hex (42_finalizer.md R162, R163). -/

namespace Sys2Proof.Machine

/-- The rotate-and-add of the lanes, both widths (42_finalizer.md R143, R144). -/
def converge {w : Nat} (v : Lanes w) : BitVec w :=
  rotl v.lane0 1 + rotl v.lane1 7 + rotl v.lane2 12 + rotl v.lane3 18

/-- Short-input seeding, XXH32 (42_finalizer.md R141). -/
def shortSeed32 (st : HashState 32) : Word32 := st.seed + xxh32.prime5 + st.totalLength.setWidth 32

/-- Short-input seeding, XXH64 (42_finalizer.md R142). -/
def shortSeed64 (st : HashState 64) : Word64 := st.seed + xxh64.prime5 + st.totalLength

/-- Long-input seeding, XXH32: only the low 32 bits of the counter enter (42_finalizer.md R143). -/
def longSeed32 (st : HashState 32) : Word32 := converge st.v + st.totalLength.setWidth 32

/-- `mergeRound(h, lane)`, XXH64 only (42_finalizer.md R146). -/
def mergeRound (h lane : Word64) : Word64 := (h ^^^ round xxh64 0#64 lane) * xxh64.prime1 + xxh64.prime4

/-- The four mergeRounds, lane 0, 1, 2, 3 in this order (42_finalizer.md R146, R147; notes/assumptions/4.md). -/
def mergeLanes (h : Word64) (v : Lanes 64) : Word64 :=
  mergeRound (mergeRound (mergeRound (mergeRound h v.lane0) v.lane1) v.lane2) v.lane3

/-- Long-input seeding, XXH64 (42_finalizer.md R147). -/
def longSeed64 (st : HashState 64) : Word64 := mergeLanes (converge st.v) st.v + st.totalLength

/-- `count` tail steps of one group size, the pointer `p` advancing by `size` each time (42_finalizer.md R149). -/
def tailSteps {w : Nat} (size : Nat) (step : BitVec w → Nat → BitVec w) : Nat → Nat → BitVec w → BitVec w
  | 0, _, h => h
  | count + 1, p, h => tailSteps size step count (p + size) (step h p)

/-- The XXH32 4-byte tail step (42_finalizer.md R150). -/
def tailWord32 (h word : Word32) : Word32 := rotl (h + word * xxh32.prime3) 17 * xxh32.prime4

/-- The XXH32 1-byte tail step (42_finalizer.md R151). -/
def tailByte32 (h : Word32) (b : Byte) : Word32 := rotl (h + b.setWidth 32 * xxh32.prime5) 11 * xxh32.prime1

/-- `tail32(h, t)`: 4-byte groups, then single bytes (42_finalizer.md R152). -/
def tail32 (h : Word32) (t : Bytes) : Word32 :=
  let words := t.length / 4
  let h := tailSteps 4 (fun h p => tailWord32 h (readLE 32 t p)) words 0 h
  tailSteps 1 (fun h p => tailByte32 h (readU8 t p)) (t.length % 4) (4 * words) h

/-- The XXH64 8-byte tail step (42_finalizer.md R153). -/
def tailQuad64 (h word : Word64) : Word64 := rotl (h ^^^ round xxh64 0#64 word) 27 * xxh64.prime1 + xxh64.prime4

/-- The XXH64 4-byte tail step; the word is zero-extended (42_finalizer.md R154). -/
def tailWord64 (h : Word64) (word : Word32) : Word64 :=
  rotl (h ^^^ (word.setWidth 64 * xxh64.prime1)) 23 * xxh64.prime2 + xxh64.prime3

/-- The XXH64 1-byte tail step (42_finalizer.md R155). -/
def tailByte64 (h : Word64) (b : Byte) : Word64 :=
  rotl (h ^^^ (b.setWidth 64 * xxh64.prime5)) 11 * xxh64.prime1

/-- `tail64(h, t)`: 8-byte groups, then 4-byte groups, then single bytes (42_finalizer.md R156). -/
def tail64 (h : Word64) (t : Bytes) : Word64 :=
  let quads := t.length / 8
  let words := t.length % 8 / 4
  let h := tailSteps 8 (fun h p => tailQuad64 h (readLE 64 t p)) quads 0 h
  let h := tailSteps 4 (fun h p => tailWord64 h (readLE 32 t p)) words (8 * quads) h
  tailSteps 1 (fun h p => tailByte64 h (readU8 t p)) (t.length % 4) (8 * quads + 4 * words) h

/-- One avalanche of a width: shift-xor, multiply, shift-xor, multiply, shift-xor. -/
def avalanche {w : Nat} (E : Engine w) (a b c : Nat) (h : BitVec w) : BitVec w :=
  let h := h ^^^ (h >>> a)
  let h := h * E.prime2
  let h := h ^^^ (h >>> b)
  let h := h * E.prime3
  h ^^^ (h >>> c)

/-- `avalanche32(h)` (42_finalizer.md R157). -/
def avalanche32 (h : Word32) : Word32 := avalanche xxh32 15 13 16 h

/-- `avalanche64(h)` (42_finalizer.md R158). -/
def avalanche64 (h : Word64) : Word64 := avalanche xxh64 33 29 32 h

/-- `final_32(st)` (42_finalizer.md R159). -/
def final32 (st : HashState 32) : Word32 :=
  avalanche32 (tail32 (if large xxh32 st then longSeed32 st else shortSeed32 st) st.buf)

/-- `final_64(st)` (42_finalizer.md R160). -/
def final64 (st : HashState 64) : Word64 :=
  avalanche64 (tail64 (if large xxh64 st then longSeed64 st else shortSeed64 st) st.buf)

/-- `hash_32(bytes, seed)` (43_oneshot.md R170). -/
def hash32 (bytes : Bytes) (seed : Word32) : Word32 := final32 (absorb xxh32 (initState xxh32 seed) bytes)

/-- `hash_64(bytes, seed)` (43_oneshot.md R170). -/
def hash64 (bytes : Bytes) (seed : Word64) : Word64 := final64 (absorb xxh64 (initState xxh64 seed) bytes)

/-- `digest_bytes_W(h)`: most significant byte first (42_finalizer.md R162, as 90_conflicts.md C1 resolves it). -/
def digestBytes {w : Nat} (E : Engine w) (h : BitVec w) : Bytes :=
  (List.range E.digestSize).map fun k => BitVec.ofNat 8 ((h >>> (8 * (E.digestSize - 1 - k))).toNat % 256)

/-- A hexadecimal digit, lowercase (42_finalizer.md R163). -/
def hexDigit (n : Nat) : Char := if n < 10 then Char.ofNat (48 + n) else Char.ofNat (87 + n)

/-- `hexdigest_W(h)` as characters: each digest byte as two lowercase digits, high digit first (42_finalizer.md R163). -/
def hexDigest {w : Nat} (E : Engine w) (h : BitVec w) : List Char :=
  (digestBytes E h).flatMap fun b => [hexDigit (b.toNat / 16), hexDigit (b.toNat % 16)]

end Sys2Proof.Machine
end

