-- ==== Sys2Proof/Machine/Ops.lean ====
section
/-! DEFINITION. The named operations over the state: the slots, the command stream, the response, taking a fault (the one
shared fault entry), consuming a payload, fetching a command, reset, and what the host does. -/

namespace Sys2Proof.Machine

/-! ### Slots (10_state.md R20) -/

/-- Write XXH32 slot `c`. -/
def State.setSlot32 (s : State) (c : Nat) (slot : Slot 32) : State := { s with ctx32 := s.ctx32.set c slot }

/-- Write XXH64 slot `c`. -/
def State.setSlot64 (s : State) (c : Nat) (slot : Slot 64) : State := { s with ctx64 := s.ctx64.set c slot }

/-- Change the Hash State of XXH32 slot `c`; its `valid` bit stays. -/
def State.updateSlot32 (s : State) (c : Nat) (f : HashState 32 → HashState 32) : State :=
  { s with ctx32 := s.ctx32.modify c fun slot => { slot with st := f slot.st } }

/-- Change the Hash State of XXH64 slot `c`; its `valid` bit stays. -/
def State.updateSlot64 (s : State) (c : Nat) (f : HashState 64 → HashState 64) : State :=
  { s with ctx64 := s.ctx64.modify c fun slot => { slot with st := f slot.st } }

/-! ### Stream and response (10_state.md R30, R33) -/

/-- Consume `n` bytes of the command stream: they are gone, and `pos` counts them (10_state.md R30, R36). -/
def State.consume (s : State) (n : Nat) : State := { s with stream := s.stream.drop n, pos := s.pos + n }

/-- Consume the 16 bytes of the descriptor being executed. -/
def State.consumeDescriptor (s : State) : State := s.consume Config.descBytes

/-- `respond(status, value)`: the command's one response; `seq` counts it (10_state.md R30, R33). -/
def State.respond (s : State) (status : BitVec 8) (value : Word64) : State :=
  { s with seq := s.seq + 1, responses := s.responses ++ [⟨status, value⟩] }

/-- `respond(0x00, value)`: a command that completed. -/
def State.complete (s : State) (value : Word64) : State := s.respond 0x00#8 value

/-! ### Taking a fault (60_exceptions.md R190, R200) -/

/-- The fault codes (60_exceptions.md R190). -/
def causeCode : Cause → BitVec 8
  | .invalidArgument => 0x01#8
  | .illegalCommand => 0x02#8
  | .badContext => 0x03#8
  | .contextInvalid => 0x04#8
  | .lengthOverflow => 0x05#8

/-- Fault entry: the descriptor is consumed and no payload byte, the response is `(e, 0)`, `FAULT` takes the code, the
sequencer halts, and no slot changes (60_exceptions.md R200). -/
def State.takeFault (s : State) (e : Cause) : State :=
  { s.consumeDescriptor.respond (causeCode e) 0#64 with fault := causeCode e, phase := .halted }

/-- `raise e`: a next state, the fault taken. -/
def raise (e : Cause) (s : State) : Host.Outcome State Fault Refusal := .next (s.takeFault e)

/-! ### Payload (30_encoding.md R76; 41_hash_state.md R130 to R132; 43_oneshot.md R174) -/

/-- Give payload bytes to the command in progress: to its slot (UPD) or its own Hash State (HASH). -/
def State.feedJob (s : State) (job : Job) (chunk : Bytes) : State × Job :=
  match job with
  | .upd32 c => (s.updateSlot32 c fun st => feed xxh32 st chunk, .upd32 c)
  | .upd64 c => (s.updateSlot64 c fun st => feed xxh64 st chunk, .upd64 c)
  | .hash32 work => (s, .hash32 (feed xxh32 work chunk))
  | .hash64 work => (s, .hash64 (feed xxh64 work chunk))

/-- The response value of a command whose payload has been consumed: 0 for UPD, the digest for HASH (10_state.md R33). -/
def jobValue : Job → Word64
  | .upd32 _ => 0#64
  | .upd64 _ => 0#64
  | .hash32 work => (final32 work).setWidth 64
  | .hash64 work => final64 work

/-- Move every payload byte that is available, up to the `remaining` ones, through the command in progress; respond and
return to IDLE after the last one. DESIGN CHOICE: R130 allows any number of bytes a step (notes/assumptions/9.md). -/
def State.pump (s : State) : State :=
  match s.phase with
  | .idle => s
  | .halted => s
  | .payload job remaining =>
    let chunk := s.stream.take remaining
    let fed := (s.consume chunk.length).feedJob job chunk
    if chunk.length = remaining then
      ({ fed.1 with phase := .idle } : State).complete (jobValue fed.2)
    else { fed.1 with phase := .payload fed.2 (remaining - chunk.length) }

/-- Accept a UPD or HASH with `len` payload bytes: PAYLOAD, and the bytes already there are consumed at once. -/
def State.startPayload (s : State) (job : Job) (len : Nat) : State :=
  ({ s with phase := .payload job len } : State).pump

/-! ### Fetching a command (30_encoding.md R81; 60_exceptions.md R202) -/

/-- What stands at the front of the command stream. -/
inductive Fetched where
  /-- fewer than 16 bytes: the sequencer waits -/
  | waiting
  /-- a descriptor that is no command -/
  | illegal
  /-- a command -/
  | command (i : Instr)
  deriving DecidableEq, Repr

/-- Read the next command without consuming it. -/
def State.fetch (s : State) : Fetched :=
  match decode s.stream with
  | .ok (i, _) => .command i
  | .error .incomplete => .waiting
  | .error .reservedOp => .illegal
  | .error .reservedBits => .illegal
  | .error .nonZeroField => .illegal

/-- Put a descriptor of `nbits` bits `w`, and the zero bytes its `LEN` asks for (at most 64 of them, so that the state stays
small), at the front of the command stream of a machine ready to fetch (notes/assumptions/13.md). -/
def State.placeTableWord (s : State) (nbits w : Nat) : State :=
  let len := match decodeTableWord nbits w with
    | some i => payloadLength i
    | none => 0
  { s with
    stream := tableBytes nbits w ++ List.replicate (min len 64) 0#8 ++ s.stream
    phase := .idle
    resetRequest := false }

/-! ### Reset and the host (70_reset_and_hazards.md R220 to R222; 00_scope.md R17) -/

/-- The reset event: the table of 10_state.md R40. Responses already produced stay; the request is taken. -/
def State.applyReset (s : State) : State where
  ctx32 := List.replicate s.ctx32.length (Slot.blank 32)
  ctx64 := List.replicate s.ctx64.length (Slot.blank 64)
  phase := .idle
  fault := 0#8
  pos := 0
  seq := 0
  stream := []
  responses := s.responses
  resetRequest := false

/-- HOST: append bytes to the command stream. -/
def State.supply (s : State) (bytes : Bytes) : State := { s with stream := s.stream ++ bytes }

/-- HOST: assert reset; the next step performs it. -/
def State.assertReset (s : State) : State := { s with resetRequest := true }

end Sys2Proof.Machine
end

