-- ==== Sys2Proof/Machine/Clone.lean ====
section
/-! DEFINITION. CPY32 and CPY64: copy the Hash State of slot `src` onto slot `ctx` of the same engine (44_clone_info.md R180
to R182). -/

namespace Sys2Proof.Machine

/-- CPY32 (44_clone_info.md R180). -/
def execCpy32 (ctx src : Nat) (s : State) : Host.Outcome State Fault Refusal :=
  if s.ctx32.length ≤ ctx then raise .badContext s
  else
    match s.ctx32[src]? with
    | none => raise .badContext s
    | some slot =>
      if slot.valid = false then raise .contextInvalid s
      else .next ((s.consumeDescriptor.setSlot32 ctx ⟨true, slot.st⟩).complete 0#64)

/-- CPY64 (44_clone_info.md R182). -/
def execCpy64 (ctx src : Nat) (s : State) : Host.Outcome State Fault Refusal :=
  if s.ctx64.length ≤ ctx then raise .badContext s
  else
    match s.ctx64[src]? with
    | none => raise .badContext s
    | some slot =>
      if slot.valid = false then raise .contextInvalid s
      else .next ((s.consumeDescriptor.setSlot64 ctx ⟨true, slot.st⟩).complete 0#64)

end Sys2Proof.Machine
end

