-- ==== Sys2Proof/Machine/Construct.lean ====
section
/-! DEFINITION. INIT32 and INIT64: construct a Hash State in a slot (41_hash_state.md R121 to R123). -/

namespace Sys2Proof.Machine

/-- INIT32 (41_hash_state.md R121). -/
def execInit32 (ctx : Nat) (imm : Word64) (s : State) : Host.Outcome State Fault Refusal :=
  if s.ctx32.length ≤ ctx then raise .badContext s
  else
    match seedOperand32 imm with
    | none => raise .invalidArgument s
    | some seed => .next ((s.consumeDescriptor.setSlot32 ctx ⟨true, initState xxh32 seed⟩).complete 0#64)

/-- INIT64 (41_hash_state.md R122). -/
def execInit64 (ctx : Nat) (imm : Word64) (s : State) : Host.Outcome State Fault Refusal :=
  if s.ctx64.length ≤ ctx then raise .badContext s
  else .next ((s.consumeDescriptor.setSlot64 ctx ⟨true, initState xxh64 (seedOperand64 imm)⟩).complete 0#64)

end Sys2Proof.Machine
end

