-- ==== Sys2Proof/Machine/Digest.lean ====
section
/-! DEFINITION. DIG32 and DIG64: respond with the digest of a slot and leave the slot alone (42_finalizer.md R161, R164,
R165). -/

namespace Sys2Proof.Machine

/-- DIG32 (42_finalizer.md R161). -/
def execDig32 (ctx : Nat) (s : State) : Host.Outcome State Fault Refusal :=
  match s.ctx32[ctx]? with
  | none => raise .badContext s
  | some slot =>
    if slot.valid = false then raise .contextInvalid s
    else .next (s.consumeDescriptor.complete ((final32 slot.st).setWidth 64))

/-- DIG64 (42_finalizer.md R164). -/
def execDig64 (ctx : Nat) (s : State) : Host.Outcome State Fault Refusal :=
  match s.ctx64[ctx]? with
  | none => raise .badContext s
  | some slot =>
    if slot.valid = false then raise .contextInvalid s
    else .next (s.consumeDescriptor.complete (final64 slot.st))

end Sys2Proof.Machine
end

