-- ==== Sys2Proof/Machine/Info.lean ====
section
/-! DEFINITION. INFO32 and INFO64: respond with the engine's attribute word (44_clone_info.md R184; 10_state.md R35). -/

namespace Sys2Proof.Machine

/-- `INFOWORD_W`: `digest_size` in bits 7:0, `block_size` in 15:8, zero in 23:16, `name` in 63:24, its first character on
top (44_clone_info.md R184). -/
def infoWord {w : Nat} (E : Engine w) : Word64 :=
  BitVec.ofNat 64 (E.digestSize + 2 ^ 8 * E.block + 2 ^ 24 * leNat E.name.reverse)

/-- INFO32 (44_clone_info.md R184). -/
def execInfo32 (s : State) : Host.Outcome State Fault Refusal :=
  .next (s.consumeDescriptor.complete (infoWord xxh32))

/-- INFO64 (44_clone_info.md R184). -/
def execInfo64 (s : State) : Host.Outcome State Fault Refusal :=
  .next (s.consumeDescriptor.complete (infoWord xxh64))

end Sys2Proof.Machine
end

