-- ==== Sys2Proof/Machine/OneShot.lean ====
section
/-! DEFINITION. HASH32 and HASH64: the digest of the payload, in a Hash State of its own (43_oneshot.md R170 to R174). -/

namespace Sys2Proof.Machine

/-- HASH32 (43_oneshot.md R172). -/
def execHash32 (len : BitVec 32) (imm : Word64) (s : State) : Host.Outcome State Fault Refusal :=
  match seedOperand32 imm with
  | none => raise .invalidArgument s
  | some seed =>
    .next (s.consumeDescriptor.startPayload
      (.hash32 (advance (initState xxh32 seed) (len.setWidth 64))) len.toNat)

/-- HASH64 (43_oneshot.md R173). -/
def execHash64 (len : BitVec 32) (imm : Word64) (s : State) : Host.Outcome State Fault Refusal :=
  .next (s.consumeDescriptor.startPayload
    (.hash64 (advance (initState xxh64 (seedOperand64 imm)) (len.setWidth 64))) len.toNat)

end Sys2Proof.Machine
end

