-- ==== Sys2Proof/Machine/Update.lean ====
section
/-! DEFINITION. UPD32 and UPD64: absorb the payload into a slot (41_hash_state.md R124, R126, R127, R130, R131). -/

namespace Sys2Proof.Machine

/-- UPD32 (41_hash_state.md R124): `totalLength` is advanced at acceptance, the payload follows (R130). -/
def execUpd32 (ctx : Nat) (len : BitVec 32) (s : State) : Host.Outcome State Fault Refusal :=
  match s.ctx32[ctx]? with
  | none => raise .badContext s
  | some slot =>
    if slot.valid = false then raise .contextInvalid s
    else if lengthOverflows slot.st.totalLength len then raise .lengthOverflow s
    else
      .next ((s.consumeDescriptor.updateSlot32 ctx fun st => advance st (len.setWidth 64)).startPayload
        (.upd32 ctx) len.toNat)

/-- UPD64 (41_hash_state.md R126): as UPD32 on the XXH64 context file. -/
def execUpd64 (ctx : Nat) (len : BitVec 32) (s : State) : Host.Outcome State Fault Refusal :=
  match s.ctx64[ctx]? with
  | none => raise .badContext s
  | some slot =>
    if slot.valid = false then raise .contextInvalid s
    else if lengthOverflows slot.st.totalLength len then raise .lengthOverflow s
    else
      .next ((s.consumeDescriptor.updateSlot64 ctx fun st => advance st (len.setWidth 64)).startPayload
        (.upd64 ctx) len.toNat)

end Sys2Proof.Machine
end

