-- ==== Sys2Proof/Machine/Dispatch.lean ====
section
/-! DEFINITION. One arm per command, each one call of its meaning. -/

namespace Sys2Proof.Machine

def exec (i : Instr) (s : State) : Host.Outcome State Fault Refusal :=
  match i with
  | .init32 ctx imm => Sys2Proof.Machine.execInit32 ctx imm s
  | .init64 ctx imm => Sys2Proof.Machine.execInit64 ctx imm s
  | .upd32 ctx len => Sys2Proof.Machine.execUpd32 ctx len s
  | .upd64 ctx len => Sys2Proof.Machine.execUpd64 ctx len s
  | .dig32 ctx => Sys2Proof.Machine.execDig32 ctx s
  | .dig64 ctx => Sys2Proof.Machine.execDig64 ctx s
  | .cpy32 ctx src => Sys2Proof.Machine.execCpy32 ctx src s
  | .cpy64 ctx src => Sys2Proof.Machine.execCpy64 ctx src s
  | .hash32 len imm => Sys2Proof.Machine.execHash32 len imm s
  | .hash64 len imm => Sys2Proof.Machine.execHash64 len imm s
  | .info32 => Sys2Proof.Machine.execInfo32 s
  | .info64 => Sys2Proof.Machine.execInfo64 s

end Sys2Proof.Machine
end

