-- ==== Sys2Proof/Machine/Sequencer.lean ====
section
/-! DEFINITION. The sequencer: what one step does in each phase (10_state.md R30, R31; 60_exceptions.md R200 to R202). -/

namespace Sys2Proof.Machine

/-- One step. A requested reset comes before everything else (70_reset_and_hazards.md R220, R222). HALTED has no next state
(60_exceptions.md R201). In PAYLOAD the available payload bytes are consumed; in IDLE the next command is executed, or its
descriptor is refused; where bytes are missing the sequencer waits and nothing changes (60_exceptions.md R202). -/
def sequencerStep (s : State) : Host.Outcome State Fault Refusal :=
  if s.resetRequest then .next s.applyReset
  else
    match s.phase with
    | .halted => .fault .halted
    | .payload _ _ => if s.stream = [] then .next s else .next s.pump
    | .idle =>
      match s.fetch with
      | .waiting => .next s
      | .illegal => raise .illegalCommand s
      | .command i => exec i s

end Sys2Proof.Machine
end

