-- ==== Sys2Proof/Machine/Step.lean ====
section
/-! DEFINITION. One step of the machine, and how the host places a command where the next step fetches it. -/

namespace Sys2Proof.Machine

/-- One step of the machine: the sequencer's. -/
def step : State → Host.Outcome State Fault Refusal := fun s => sequencerStep s

/-- `s` with the command of an opcode-table row at the front of its stream, ready to be fetched (notes/assumptions/13.md). -/
def State.withFetchWord (s : State) (nbits w : Nat) : State := s.placeTableWord nbits w

end Sys2Proof.Machine
end

