-- ==== Sys2Proof/Machine/Assembler.lean ====
section
/-! DEFINITION. What builds command streams: a command with its payload as bytes (30_encoding.md R70, R76), the
pseudo-commands (R92), and the assembler syntax (R90). It stands outside the machine: no step calls it. -/

namespace Sys2Proof.Machine

/-- A command and the payload that follows its descriptor. -/
structure Command where
  instr : Instr
  payload : Bytes
  deriving DecidableEq, Repr

/-- The command's bytes in stream order (30_encoding.md R70, R76). -/
def commandBytes (c : Command) : Bytes := encode c.instr ++ c.payload

/-- A command stream: its commands' bytes, without padding (20_memory.md R55). -/
def streamOf (cs : List Command) : Bytes := cs.flatMap commandBytes

/-- A command without payload. -/
def plain (i : Instr) : Command := ⟨i, []⟩

/-- `UPD32 c, <bytes>` with `LEN` the byte count (30_encoding.md R90). -/
def upd32Command (c : Nat) (bytes : Bytes) : Command := ⟨.upd32 c (BitVec.ofNat 32 bytes.length), bytes⟩

/-- `UPD64 c, <bytes>` -/
def upd64Command (c : Nat) (bytes : Bytes) : Command := ⟨.upd64 c (BitVec.ofNat 32 bytes.length), bytes⟩

/-- `HASH32 seed, <bytes>` -/
def hash32Command (seed : Word64) (bytes : Bytes) : Command := ⟨.hash32 (BitVec.ofNat 32 bytes.length) seed, bytes⟩

/-- `HASH64 seed, <bytes>` -/
def hash64Command (seed : Word64) (bytes : Bytes) : Command := ⟨.hash64 (BitVec.ofNat 32 bytes.length) seed, bytes⟩

/-! ### Pseudo-commands (30_encoding.md R92) -/

/-- Cut bytes into consecutive parts of at most `limit`; `fuel` bounds the number of cuts. DESIGN CHOICE: full parts from the
front, the remainder last; 30_encoding.md R92 allows any split (notes/assumptions/20.md). -/
def cutParts (limit : Nat) : Nat → Bytes → List Bytes
  | 0, bytes => [bytes]
  | fuel + 1, bytes =>
    if bytes.length ≤ limit then [bytes] else bytes.take limit :: cutParts limit fuel (bytes.drop limit)

/-- The parts `UPDL` and `HASHL` cut a message into, each at most `MAXLEN` bytes. DESIGN CHOICE: as few parts as there can be,
and one empty part for the empty message (notes/assumptions/20.md). -/
def updlParts (bytes : Bytes) : List Bytes := cutParts Config.maxLen bytes.length bytes

/-- `NEW32 c, seed, <bytes>` -/
def new32 (c : Nat) (seed : Word64) (bytes : Bytes) : List Command := [plain (.init32 c seed), upd32Command c bytes]

/-- `NEW64 c, seed, <bytes>` -/
def new64 (c : Nat) (seed : Word64) (bytes : Bytes) : List Command := [plain (.init64 c seed), upd64Command c bytes]

/-- `UPDL c, <bytes>` on the XXH32 engine -/
def updl32 (c : Nat) (bytes : Bytes) : List Command := (updlParts bytes).map (upd32Command c)

/-- `UPDL c, <bytes>` on the XXH64 engine -/
def updl64 (c : Nat) (bytes : Bytes) : List Command := (updlParts bytes).map (upd64Command c)

/-- `HASHL seed, <bytes>` on the XXH32 engine, with the slot `c` the host sets aside -/
def hashl32 (c : Nat) (seed : Word64) (bytes : Bytes) : List Command :=
  plain (.init32 c seed) :: updl32 c bytes ++ [plain (.dig32 c)]

/-- `HASHL seed, <bytes>` on the XXH64 engine, with the slot `c` the host sets aside -/
def hashl64 (c : Nat) (seed : Word64) (bytes : Bytes) : List Command :=
  plain (.init64 c seed) :: updl64 c bytes ++ [plain (.dig64 c)]

/-! ### Assembler syntax (30_encoding.md R90): a line of characters to its commands, or none where it is refused.
DESIGN CHOICE: the points R90 leaves open, listed in notes/assumptions/16.md. -/

/-- A blank between two tokens. -/
def isBlank (c : Char) : Bool := c = ' ' || c = '\t'

/-- Drop leading blanks. -/
def skipBlanks (cs : List Char) : List Char := cs.dropWhile isBlank

/-- Nothing but blanks and a comment is left. -/
def atEnd (cs : List Char) : Bool :=
  match skipBlanks cs with
  | [] => true
  | c :: _ => c = ';'

/-- The value of a hexadecimal digit of either case. -/
def digitValue (c : Char) : Option Nat :=
  let n := c.toNat
  if 48 ≤ n ∧ n ≤ 57 then some (n - 48)
  else if 65 ≤ n ∧ n ≤ 70 then some (n - 55)
  else if 97 ≤ n ∧ n ≤ 102 then some (n - 87)
  else none

/-- The number a non-empty run of digits of a base spells. -/
def digitsValue (base : Nat) (ds : List Char) : Option Nat :=
  if ds = [] then none
  else ds.foldlM (fun acc d => (digitValue d).bind fun v => if v < base then some (acc * base + v) else none) 0

/-- A character of a mnemonic or a number. -/
def isWordChar (c : Char) : Bool :=
  let n := c.toNat
  (48 ≤ n && n ≤ 57) || (65 ≤ n && n ≤ 90) || (97 ≤ n && n ≤ 122)

/-- An unsigned number, decimal or `0x` hexadecimal, and what follows it. -/
def readNumber (cs : List Char) : Option (Nat × List Char) :=
  let cs := skipBlanks cs
  let rest := cs.dropWhile isWordChar
  match cs.takeWhile isWordChar with
  | '0' :: 'x' :: ds => (digitsValue 16 ds).map fun n => (n, rest)
  | ds => (digitsValue 10 ds).map fun n => (n, rest)

/-- What follows a comma. -/
def readComma (cs : List Char) : Option (List Char) :=
  match skipBlanks cs with
  | [] => none
  | c :: rest => if c = ',' then some rest else none

/-- The bytes an even run of hexadecimal digits spells. -/
def hexBytes : List Char → Option Bytes
  | [] => some []
  | [_] => none
  | a :: b :: ds =>
    match digitValue a, digitValue b, hexBytes ds with
    | some x, some y, some bytes => some (BitVec.ofNat 8 (16 * x + y) :: bytes)
    | _, _, _ => none

/-- Each ASCII character as one byte. -/
def asciiBytes (cs : List Char) : Option Bytes :=
  cs.mapM fun c => if c.toNat < 128 then some (BitVec.ofNat 8 c.toNat) else none

/-- A payload, `"ascii"` or `hex:` and digits, at the end of a line. -/
def readPayload (cs : List Char) : Option Bytes :=
  match skipBlanks cs with
  | '"' :: rest =>
    match rest.dropWhile (· ≠ '"') with
    | [] => none
    | _ :: after => if atEnd after then asciiBytes (rest.takeWhile (· ≠ '"')) else none
  | 'h' :: 'e' :: 'x' :: ':' :: rest =>
    if atEnd (rest.dropWhile isWordChar) then hexBytes (rest.takeWhile isWordChar) else none
  | _ => none

/-- A slot index that fits its field. DESIGN CHOICE: `0x` hexadecimal is taken beside the decimal of 30_encoding.md R90
(notes/assumptions/16.md). -/
def readIndex (cs : List Char) : Option (Nat × List Char) :=
  (readNumber cs).bind fun (c, rest) => if c < 2 ^ 8 then some (c, rest) else none

/-- A seed that fits `IMM`: a larger one must be refused before encoding (30_encoding.md R77). -/
def readSeed (cs : List Char) : Option (Word64 × List Char) :=
  (readNumber cs).bind fun (n, rest) => if n < 2 ^ 64 then some (BitVec.ofNat 64 n, rest) else none

/-- A payload that one command can carry (30_encoding.md R76). -/
def readShortPayload (cs : List Char) : Option Bytes :=
  (readPayload cs).bind fun bytes => if bytes.length ≤ Config.maxLen then some bytes else none

/-- `c` or `c, seed`, an omitted seed being 0. -/
def readIndexSeed (cs : List Char) : Option (Nat × Word64) :=
  (readIndex cs).bind fun (c, rest) =>
    if atEnd rest then some (c, 0#64)
    else (readComma rest).bind fun rest =>
      (readSeed rest).bind fun (seed, rest) => if atEnd rest then some (c, seed) else none

/-- `seed, <bytes>` or `<bytes>`, an omitted seed being 0. -/
def readSeedPayload (read : List Char → Option Bytes) (cs : List Char) : Option (Word64 × Bytes) :=
  match read cs with
  | some bytes => some (0#64, bytes)
  | none =>
    (readSeed cs).bind fun (seed, rest) =>
      (readComma rest).bind fun rest => (read rest).map fun bytes => (seed, bytes)

/-- `c, <bytes>` -/
def readIndexPayload (read : List Char → Option Bytes) (cs : List Char) : Option (Nat × Bytes) :=
  (readIndex cs).bind fun (c, rest) => (readComma rest).bind fun rest => (read rest).map fun bytes => (c, bytes)

/-- `c, seed, <bytes>` or `c, <bytes>` -/
def readIndexSeedPayload (read : List Char → Option Bytes) (cs : List Char) : Option (Nat × Word64 × Bytes) :=
  (readIndex cs).bind fun (c, rest) => (readComma rest).bind fun rest =>
    (readSeedPayload read rest).map fun (seed, bytes) => (c, seed, bytes)

/-- `c` alone -/
def readOnlyIndex (cs : List Char) : Option Nat :=
  (readIndex cs).bind fun (c, rest) => if atEnd rest then some c else none

/-- `cd, cs` -/
def readTwoIndices (cs : List Char) : Option (Nat × Nat) :=
  (readIndex cs).bind fun (cd, rest) => (readComma rest).bind fun rest => (readOnlyIndex rest).map fun c => (cd, c)

/-- The operands of one mnemonic to its commands (30_encoding.md R90, R92). -/
def assembleOperands (mnemonic : List Char) (cs : List Char) : Option (List Command) :=
  if mnemonic = "INIT32".toList then (readIndexSeed cs).map fun (c, seed) => [plain (.init32 c seed)]
  else if mnemonic = "INIT64".toList then (readIndexSeed cs).map fun (c, seed) => [plain (.init64 c seed)]
  else if mnemonic = "UPD32".toList then (readIndexPayload readShortPayload cs).map fun (c, b) => [upd32Command c b]
  else if mnemonic = "UPD64".toList then (readIndexPayload readShortPayload cs).map fun (c, b) => [upd64Command c b]
  else if mnemonic = "DIG32".toList then (readOnlyIndex cs).map fun c => [plain (.dig32 c)]
  else if mnemonic = "DIG64".toList then (readOnlyIndex cs).map fun c => [plain (.dig64 c)]
  else if mnemonic = "CPY32".toList then (readTwoIndices cs).map fun (d, c) => [plain (.cpy32 d c)]
  else if mnemonic = "CPY64".toList then (readTwoIndices cs).map fun (d, c) => [plain (.cpy64 d c)]
  else if mnemonic = "HASH32".toList then (readSeedPayload readShortPayload cs).map fun (s, b) => [hash32Command s b]
  else if mnemonic = "HASH64".toList then (readSeedPayload readShortPayload cs).map fun (s, b) => [hash64Command s b]
  else if mnemonic = "INFO32".toList then (if atEnd cs then some [plain .info32] else none)
  else if mnemonic = "INFO64".toList then (if atEnd cs then some [plain .info64] else none)
  else if mnemonic = "NEW32".toList then
    (readIndexSeedPayload readShortPayload cs).map fun (c, seed, b) => new32 c seed b
  else if mnemonic = "NEW64".toList then
    (readIndexSeedPayload readShortPayload cs).map fun (c, seed, b) => new64 c seed b
  else if mnemonic = "UPDL32".toList then (readIndexPayload readPayload cs).map fun (c, b) => updl32 c b
  else if mnemonic = "UPDL64".toList then (readIndexPayload readPayload cs).map fun (c, b) => updl64 c b
  else none

/-- One line: a blank or comment line is no command. -/
def assembleLine (line : List Char) : Option (List Command) :=
  let cs := skipBlanks line
  if atEnd cs then some [] else assembleOperands (cs.takeWhile isWordChar) (cs.dropWhile isWordChar)

/-- A text, one command a line, to its commands. -/
def assemble (text : List Char) : Option (List Command) :=
  ((text.splitOn '\n').mapM assembleLine).map List.flatten

end Sys2Proof.Machine
end

