-- ==== Sys2Proof/Safety.lean ====
section
/-! DEFINITION. The terms claims are made in: how a run stands (60_exceptions.md R202), which fault causes apply to a command
(R191 to R195, R197, R198), and the invariant of the machine (10_state.md R27, R32). -/

namespace Sys2Proof.Machine

/-! ### How a run stands (60_exceptions.md R202) -/

/-- The ways a run stands, which R202 keeps apart. -/
inductive RunStatus where
  /-- HALTED: never a successful end -/
  | faulted
  /-- IDLE with some but fewer than 16 unconsumed bytes -/
  | waitingDescriptor
  /-- PAYLOAD with no byte available -/
  | waitingPayload
  /-- IDLE with no unconsumed byte: the run ended normally if the host has finished -/
  | drained
  /-- a step makes progress -/
  | running
  deriving DecidableEq, Repr

/-- How the run stands in a state. -/
def runStatus (s : State) : RunStatus :=
  match s.phase with
  | .halted => .faulted
  | .payload _ _ => if s.stream = [] then .waitingPayload else .running
  | .idle =>
    if s.stream = [] then .drained
    else if s.stream.length < Config.descBytes then .waitingDescriptor else .running

/-! ### Fault causes, from the rule of each cause (60_exceptions.md R191 to R195) -/

/-- The slot exists and is not valid. -/
def slotInvalid {w : Nat} (slots : List (Slot w)) (c : Nat) : Bool :=
  match slots[c]? with
  | some slot => !slot.valid
  | none => false

/-- The slot exists and `totalLength + LEN` is `2^64` or more. -/
def slotOverflows {w : Nat} (slots : List (Slot w)) (c : Nat) (len : BitVec 32) : Bool :=
  match slots[c]? with
  | some slot => decide (2 ^ 64 ≤ slot.st.totalLength.toNat + len.toNat)
  | none => false

/-- BadContext: a used slot index is `>= NCTX` (60_exceptions.md R193). -/
def badContextApplies (s : State) : Instr → Bool
  | .init32 c _ => decide (s.ctx32.length ≤ c)
  | .init64 c _ => decide (s.ctx64.length ≤ c)
  | .upd32 c _ => decide (s.ctx32.length ≤ c)
  | .upd64 c _ => decide (s.ctx64.length ≤ c)
  | .dig32 c => decide (s.ctx32.length ≤ c)
  | .dig64 c => decide (s.ctx64.length ≤ c)
  | .cpy32 d c => decide (s.ctx32.length ≤ d) || decide (s.ctx32.length ≤ c)
  | .cpy64 d c => decide (s.ctx64.length ≤ d) || decide (s.ctx64.length ≤ c)
  | .hash32 _ _ => false
  | .hash64 _ _ => false
  | .info32 => false
  | .info64 => false

/-- InvalidArgument: an XXH32 seed above `2^32 - 1` (60_exceptions.md R191). -/
def invalidArgumentApplies : Instr → Bool
  | .init32 _ imm => decide (2 ^ 32 ≤ imm.toNat)
  | .hash32 _ imm => decide (2 ^ 32 ≤ imm.toNat)
  | .init64 _ _ => false
  | .upd32 _ _ => false
  | .upd64 _ _ => false
  | .dig32 _ => false
  | .dig64 _ => false
  | .cpy32 _ _ => false
  | .cpy64 _ _ => false
  | .hash64 _ _ => false
  | .info32 => false
  | .info64 => false

/-- ContextInvalid: the operated slot (of CPY, the source) is not valid (60_exceptions.md R194). -/
def contextInvalidApplies (s : State) : Instr → Bool
  | .upd32 c _ => slotInvalid s.ctx32 c
  | .upd64 c _ => slotInvalid s.ctx64 c
  | .dig32 c => slotInvalid s.ctx32 c
  | .dig64 c => slotInvalid s.ctx64 c
  | .cpy32 _ c => slotInvalid s.ctx32 c
  | .cpy64 _ c => slotInvalid s.ctx64 c
  | .init32 _ _ => false
  | .init64 _ _ => false
  | .hash32 _ _ => false
  | .hash64 _ _ => false
  | .info32 => false
  | .info64 => false

/-- LengthOverflow (60_exceptions.md R195). -/
def lengthOverflowApplies (s : State) : Instr → Bool
  | .upd32 c len => slotOverflows s.ctx32 c len
  | .upd64 c len => slotOverflows s.ctx64 c len
  | .init32 _ _ => false
  | .init64 _ _ => false
  | .dig32 _ => false
  | .dig64 _ => false
  | .cpy32 _ _ => false
  | .cpy64 _ _ => false
  | .hash32 _ _ => false
  | .hash64 _ _ => false
  | .info32 => false
  | .info64 => false

/-- Whether a cause applies to a decoded command; IllegalCommand applies to none (60_exceptions.md R192). -/
def causeApplies (s : State) (i : Instr) : Cause → Bool
  | .illegalCommand => false
  | .badContext => badContextApplies s i
  | .invalidArgument => invalidArgumentApplies i
  | .contextInvalid => contextInvalidApplies s i
  | .lengthOverflow => lengthOverflowApplies s i

/-- The causes, highest priority first (60_exceptions.md R197). -/
def causePriority : List Cause :=
  [.illegalCommand, .badContext, .invalidArgument, .contextInvalid, .lengthOverflow]

/-- The cause a command reports: the highest that applies (60_exceptions.md R197). -/
def reportedCause (s : State) (i : Instr) : Option Cause := causePriority.find? (causeApplies s i)

/-- The faults a decoded command can raise (60_exceptions.md R198). -/
def raisable : Instr → List Cause
  | .init32 _ _ => [.badContext, .invalidArgument]
  | .init64 _ _ => [.badContext]
  | .upd32 _ _ => [.badContext, .contextInvalid, .lengthOverflow]
  | .upd64 _ _ => [.badContext, .contextInvalid, .lengthOverflow]
  | .dig32 _ => [.badContext, .contextInvalid]
  | .dig64 _ => [.badContext, .contextInvalid]
  | .cpy32 _ _ => [.badContext, .contextInvalid]
  | .cpy64 _ _ => [.badContext, .contextInvalid]
  | .hash32 _ _ => [.invalidArgument]
  | .hash64 _ _ => []
  | .info32 => []
  | .info64 => []

/-! ### Which slots a command names (10_state.md R20, R29) -/

/-- The XXH32 slot a command writes. -/
def writes32 : Instr → Option Nat
  | .init32 c _ => some c
  | .upd32 c _ => some c
  | .cpy32 d _ => some d
  | .init64 _ _ => none
  | .upd64 _ _ => none
  | .dig32 _ => none
  | .dig64 _ => none
  | .cpy64 _ _ => none
  | .hash32 _ _ => none
  | .hash64 _ _ => none
  | .info32 => none
  | .info64 => none

/-- The XXH64 slot a command writes. -/
def writes64 : Instr → Option Nat
  | .init64 c _ => some c
  | .upd64 c _ => some c
  | .cpy64 d _ => some d
  | .init32 _ _ => none
  | .upd32 _ _ => none
  | .dig32 _ => none
  | .dig64 _ => none
  | .cpy32 _ _ => none
  | .hash32 _ _ => none
  | .hash64 _ _ => none
  | .info32 => none
  | .info64 => none

/-- Whether a command names an XXH32 slot, as destination or as source. -/
def names32 (i : Instr) (c : Nat) : Prop :=
  match i with
  | .init32 d _ => c = d
  | .upd32 d _ => c = d
  | .dig32 d => c = d
  | .cpy32 d e => c = d ∨ c = e
  | .init64 _ _ => False
  | .upd64 _ _ => False
  | .dig64 _ => False
  | .cpy64 _ _ => False
  | .hash32 _ _ => False
  | .hash64 _ _ => False
  | .info32 => False
  | .info64 => False

/-- Whether a command names an XXH64 slot, as destination or as source. -/
def names64 (i : Instr) (c : Nat) : Prop :=
  match i with
  | .init64 d _ => c = d
  | .upd64 d _ => c = d
  | .dig64 d => c = d
  | .cpy64 d e => c = d ∨ c = e
  | .init32 _ _ => False
  | .upd32 _ _ => False
  | .dig32 _ => False
  | .cpy32 _ _ => False
  | .hash32 _ _ => False
  | .hash64 _ _ => False
  | .info32 => False
  | .info64 => False

/-! ### The invariant (10_state.md R20, R27, R28, R31, R32) -/

/-- The Hash State has absorbed some message since its construction, `missing` bytes of which `totalLength` already counts
are still to come (10_state.md R27, R28; 41_hash_state.md R131). With `missing = 0` it is the state of a message. -/
def OfMessage {w : Nat} (E : Engine w) (st : HashState w) (missing : Nat) : Prop :=
  ∃ message : Bytes, message.length + missing < 2 ^ 64 ∧
    st = advance (absorb E (initState E st.seed) message) (BitVec.ofNat 64 missing)

/-- The payload bytes still to come for XXH32 slot `c`. -/
def missing32 (s : State) (c : Nat) : Nat :=
  match s.phase with
  | .payload (.upd32 d) remaining => if c = d then remaining else 0
  | _ => 0

/-- The payload bytes still to come for XXH64 slot `c`. -/
def missing64 (s : State) (c : Nat) : Nat :=
  match s.phase with
  | .payload (.upd64 d) remaining => if c = d then remaining else 0
  | _ => 0

/-- The command in progress is one the machine can have accepted: a UPD of a valid slot, or a HASH whose own Hash State
has the payload bytes that came so far (10_state.md R31). -/
def JobOk (s : State) (remaining : Nat) : Job → Prop
  | .upd32 c => ∃ st, s.ctx32[c]? = some ⟨true, st⟩
  | .upd64 c => ∃ st, s.ctx64[c]? = some ⟨true, st⟩
  | .hash32 work => OfMessage xxh32 work remaining
  | .hash64 work => OfMessage xxh64 work remaining

/-- The invariant of the machine, in every phase. -/
structure Inv (s : State) : Prop where
  /-- one `NCTX`, from 1 to 256, for both engines (00_scope.md R9; 10_state.md R20) -/
  nctx : s.ctx32.length = s.ctx64.length ∧ Config.minNctx ≤ s.ctx32.length ∧ s.ctx32.length ≤ Config.maxNctx
  /-- `FAULT != 0` exactly when `phase = HALTED` (10_state.md R32) -/
  faultReg : s.fault ≠ 0#8 ↔ s.phase = .halted
  /-- every valid XXH32 slot is the state of a message, but for the payload bytes still to come (10_state.md R27) -/
  slots32 : ∀ c st, s.ctx32[c]? = some ⟨true, st⟩ → OfMessage xxh32 st (missing32 s c)
  /-- every valid XXH64 slot likewise -/
  slots64 : ∀ c st, s.ctx64[c]? = some ⟨true, st⟩ → OfMessage xxh64 st (missing64 s c)
  /-- in PAYLOAD some byte is still to come, for a command that was accepted (10_state.md R31) -/
  payload : ∀ job remaining, s.phase = .payload job remaining →
    0 < remaining ∧ remaining < 2 ^ 32 ∧ JobOk s remaining job

end Sys2Proof.Machine
end

