-- ==== Sys2Proof/Certificates/Slice0/Obligations.lean ====
section
/-! DEFINITION. The statements about XXH-CORE for the provers. Each docstring names the rule of spec/ it formalises. -/

namespace Sys2Proof.Claims

open Sys2Proof Sys2Proof.Machine

/-- `s` after a command without payload completed with `respond(0x00, value)` (10_state.md R30, R33). -/
def responded (s : State) (value : Word64) : State :=
  { s with
    pos := s.pos + 16
    seq := s.seq + 1
    stream := s.stream.drop 16
    responses := s.responses ++ [⟨0x00#8, value⟩] }

/-- `s` after a UPD or HASH with `len` payload bytes completed; `rest` is the stream after its payload (10_state.md R30). -/
def respondedAfter (s : State) (len : Nat) (rest : Bytes) (value : Word64) : State :=
  { s with
    phase := .idle
    pos := s.pos + (16 + len)
    seq := s.seq + 1
    stream := rest
    responses := s.responses ++ [⟨0x00#8, value⟩] }

/-- `s` after the fault with code `code` was taken (60_exceptions.md R200). -/
def faulted (s : State) (code : BitVec 8) : State :=
  { s with
    phase := .halted
    fault := code
    pos := s.pos + 16
    seq := s.seq + 1
    stream := s.stream.drop 16
    responses := s.responses ++ [⟨code, 0#64⟩] }

/-- The twelve rows of 30_encoding.md R74: mnemonic, mask, match. -/
def opcodeRows : List (String × Descriptor × Descriptor) :=
  [("INIT32", 0x0000000000000000FFFFFFFFFF00FFFF#128, 0x00000000000000000000000000000001#128),
   ("INIT64", 0x0000000000000000FFFFFFFFFF00FFFF#128, 0x00000000000000000000000000000101#128),
   ("UPD32", 0xFFFFFFFFFFFFFFFF00000000FF00FFFF#128, 0x00000000000000000000000000000002#128),
   ("UPD64", 0xFFFFFFFFFFFFFFFF00000000FF00FFFF#128, 0x00000000000000000000000000000102#128),
   ("DIG32", 0xFFFFFFFFFFFFFFFFFFFFFFFFFF00FFFF#128, 0x00000000000000000000000000000003#128),
   ("DIG64", 0xFFFFFFFFFFFFFFFFFFFFFFFFFF00FFFF#128, 0x00000000000000000000000000000103#128)] ++
  [("CPY32", 0xFFFFFFFFFFFFFFFFFFFFFFFF0000FFFF#128, 0x00000000000000000000000000000004#128),
   ("CPY64", 0xFFFFFFFFFFFFFFFFFFFFFFFF0000FFFF#128, 0x00000000000000000000000000000104#128),
   ("HASH32", 0x000000000000000000000000FFFFFFFF#128, 0x00000000000000000000000000000005#128),
   ("HASH64", 0x000000000000000000000000FFFFFFFF#128, 0x00000000000000000000000000000105#128),
   ("INFO32", 0xFFFFFFFFFFFFFFFFFFFFFFFFFFFFFFFF#128, 0x00000000000000000000000000000006#128),
   ("INFO64", 0xFFFFFFFFFFFFFFFFFFFFFFFFFFFFFFFF#128, 0x00000000000000000000000000000106#128)]

/-- Commands executed one after another, each from the state the one before it left (20_memory.md R59). -/
def execAll : List Instr → State → Host.Outcome State Fault Refusal
  | [], s => .next s
  | i :: is, s =>
    match exec i s with
    | .next t => execAll is t
    | .fault r => .fault r
    | .refused r => .refused r

end Sys2Proof.Claims

open Sys2Proof Sys2Proof.Machine Sys2Proof.Claims

/-! ### Encoding -/

/-- In IDLE with no reset requested, a step executes the command the bytes at the front of the stream decode to, and does
nothing around it (30_encoding.md R81; 20_memory.md R59). -/
def Obligations.StepRunsDecodedCommand : Prop :=
  ∀ (s : State) (i : Instr) (rest : Bytes), s.resetRequest = false → s.phase = .idle →
    decode s.stream = .ok (i, rest) → step s = exec i s

/-- Descriptors written out in 30_encoding.md R90 and the worked examples of the command rules decode to their commands. -/
def Obligations.WrittenDescriptorsDecode : Prop :=
  decode [0x01, 0x01, 0x01, 0, 0, 0, 0, 0, 0x01, 0, 0, 0, 0, 0, 0, 0] = .ok (.init64 1 1#64, []) ∧
  decode [0x02, 0x00, 0x00, 0, 0x10, 0, 0, 0, 0, 0, 0, 0, 0, 0, 0, 0, 0x61] = .ok (.upd32 0 16#32, [0x61]) ∧
  decode [0x03, 0x00, 0x01, 0, 0, 0, 0, 0, 0, 0, 0, 0, 0, 0, 0, 0] = .ok (.dig32 1, []) ∧
  decode [0x04, 0x01, 0x01, 0x00, 0, 0, 0, 0, 0, 0, 0, 0, 0, 0, 0, 0] = .ok (.cpy64 1 0, []) ∧
  decode [0x05, 0x00, 0x00, 0, 0x11, 0, 0, 0, 0x01, 0, 0, 0, 0, 0, 0, 0] = .ok (.hash32 17#32 1#64, []) ∧
  decode [0x06, 0x01, 0x00, 0, 0, 0, 0, 0, 0, 0, 0, 0, 0, 0, 0, 0] = .ok (.info64, [])

/-- Decoding the encoding of any well-formed command gives it back, with what follows it untouched (30_encoding.md R70, R71,
R73). -/
def Obligations.DecodeInvertsEncode : Prop :=
  ∀ (i : Instr) (rest : Bytes), i.WellFormed → decode (encode i ++ rest) = .ok (i, rest)

/-- Bytes that decode are the encoding of the command they decode to: no bit of a descriptor is ignored (30_encoding.md R80,
R81). -/
def Obligations.EncodeInvertsDecode : Prop :=
  ∀ (bytes rest : Bytes) (i : Instr), decode bytes = .ok (i, rest) → i.WellFormed ∧ bytes = encode i ++ rest

/-- A descriptor spells a command exactly when `(D & mask) = match` for the command's row; no descriptor matches two rows,
and one that matches none is refused (30_encoding.md R74). -/
def Obligations.DescriptorMatchesItsRow : Prop :=
  (∀ (d : Descriptor) (row : String × Descriptor × Descriptor), row ∈ opcodeRows →
    (d &&& row.2.1 = row.2.2 ↔ ∃ i, decodeWord d = .ok i ∧ i.mnemonic = row.1)) ∧
  (∀ (d : Descriptor) (row row' : String × Descriptor × Descriptor), row ∈ opcodeRows → row' ∈ opcodeRows →
    d &&& row.2.1 = row.2.2 → d &&& row'.2.1 = row'.2.2 → row = row') ∧
  (∀ d : Descriptor, (∀ row ∈ opcodeRows, d &&& row.2.1 ≠ row.2.2) → ∃ e, decodeWord d = .error e)

/-! ### The commands -/

/-- INIT32 (41_hash_state.md R121): BadContext, then InvalidArgument, otherwise the slot holds `init_32(IMM[31:0])` and is
valid, and nothing else changes but the stream and the response. -/
def Obligations.Init32ConstructsOrFaults : Prop :=
  ∀ (ctx : Nat) (imm : Word64) (s : State),
    (s.ctx32.length ≤ ctx → exec (.init32 ctx imm) s = .next (faulted s 0x03#8)) ∧
    (ctx < s.ctx32.length → imm.extractLsb' 32 32 ≠ 0#32 → exec (.init32 ctx imm) s = .next (faulted s 0x01#8)) ∧
    (ctx < s.ctx32.length → imm.extractLsb' 32 32 = 0#32 →
      exec (.init32 ctx imm) s = .next (responded
        { s with ctx32 := s.ctx32.set ctx ⟨true, initState xxh32 (imm.extractLsb' 0 32)⟩ } 0#64))

/-- INIT64 (41_hash_state.md R122): BadContext, otherwise the slot holds `init_64(IMM)` and is valid. -/
def Obligations.Init64ConstructsOrFaults : Prop :=
  ∀ (ctx : Nat) (imm : Word64) (s : State),
    (s.ctx64.length ≤ ctx → exec (.init64 ctx imm) s = .next (faulted s 0x03#8)) ∧
    (ctx < s.ctx64.length →
      exec (.init64 ctx imm) s = .next (responded
        { s with ctx64 := s.ctx64.set ctx ⟨true, initState xxh64 imm⟩ } 0#64))

/-- UPD32 (41_hash_state.md R124): BadContext, ContextInvalid, LengthOverflow, in this order; otherwise, its `LEN` payload
bytes being there, they are consumed and the slot holds `absorb_32` of them. -/
def Obligations.Upd32AbsorbsOrFaults : Prop :=
  ∀ (ctx : Nat) (len : BitVec 32) (s : State),
    (s.ctx32.length ≤ ctx → exec (.upd32 ctx len) s = .next (faulted s 0x03#8)) ∧
    (∀ st : HashState 32, s.ctx32[ctx]? = some ⟨false, st⟩ → exec (.upd32 ctx len) s = .next (faulted s 0x04#8)) ∧
    (∀ st : HashState 32, s.ctx32[ctx]? = some ⟨true, st⟩ → 2 ^ 64 ≤ st.totalLength.toNat + len.toNat →
      exec (.upd32 ctx len) s = .next (faulted s 0x05#8)) ∧
    (∀ (st : HashState 32) (payload rest : Bytes), s.ctx32[ctx]? = some ⟨true, st⟩ → st.totalLength.toNat + len.toNat < 2 ^ 64 →
      s.stream.drop 16 = payload ++ rest → payload.length = len.toNat →
      exec (.upd32 ctx len) s = .next (respondedAfter
        { s with ctx32 := s.ctx32.set ctx ⟨true, absorb xxh32 st payload⟩ } len.toNat rest 0#64))

/-- UPD64 (41_hash_state.md R126): as UPD32, with `ctx64` and `absorb_64`. -/
def Obligations.Upd64AbsorbsOrFaults : Prop :=
  ∀ (ctx : Nat) (len : BitVec 32) (s : State),
    (s.ctx64.length ≤ ctx → exec (.upd64 ctx len) s = .next (faulted s 0x03#8)) ∧
    (∀ st : HashState 64, s.ctx64[ctx]? = some ⟨false, st⟩ → exec (.upd64 ctx len) s = .next (faulted s 0x04#8)) ∧
    (∀ st : HashState 64, s.ctx64[ctx]? = some ⟨true, st⟩ → 2 ^ 64 ≤ st.totalLength.toNat + len.toNat →
      exec (.upd64 ctx len) s = .next (faulted s 0x05#8)) ∧
    (∀ (st : HashState 64) (payload rest : Bytes), s.ctx64[ctx]? = some ⟨true, st⟩ → st.totalLength.toNat + len.toNat < 2 ^ 64 →
      s.stream.drop 16 = payload ++ rest → payload.length = len.toNat →
      exec (.upd64 ctx len) s = .next (respondedAfter
        { s with ctx64 := s.ctx64.set ctx ⟨true, absorb xxh64 st payload⟩ } len.toNat rest 0#64))

/-- An accepted UPD whose payload is not all there waits for the rest (41_hash_state.md R131; 60_exceptions.md R202):
`totalLength` already counts all `LEN` bytes, the bytes there have been given to the slot, and there is no response. That
the bytes there are taken at once is the model's choice (notes/assumptions/9.md). -/
def Obligations.UpdWaitsForItsPayload : Prop :=
  ∀ (ctx : Nat) (len : BitVec 32) (s : State), (s.stream.drop 16).length < len.toNat →
    (∀ st : HashState 32, s.ctx32[ctx]? = some ⟨true, st⟩ → st.totalLength.toNat + len.toNat < 2 ^ 64 →
      exec (.upd32 ctx len) s = .next
        { s with
          ctx32 := s.ctx32.set ctx ⟨true, { feed xxh32 st (s.stream.drop 16) with
            totalLength := st.totalLength + len.setWidth 64 }⟩
          phase := .payload (.upd32 ctx) (len.toNat - (s.stream.drop 16).length)
          pos := s.pos + 16 + (s.stream.drop 16).length
          stream := [] }) ∧
    (∀ st : HashState 64, s.ctx64[ctx]? = some ⟨true, st⟩ → st.totalLength.toNat + len.toNat < 2 ^ 64 →
      exec (.upd64 ctx len) s = .next
        { s with
          ctx64 := s.ctx64.set ctx ⟨true, { feed xxh64 st (s.stream.drop 16) with
            totalLength := st.totalLength + len.setWidth 64 }⟩
          phase := .payload (.upd64 ctx) (len.toNat - (s.stream.drop 16).length)
          pos := s.pos + 16 + (s.stream.drop 16).length
          stream := [] })

/-- DIG32 (42_finalizer.md R161). -/
def Obligations.Dig32RespondsWithDigestOrFaults : Prop :=
  ∀ (ctx : Nat) (s : State),
    (s.ctx32.length ≤ ctx → exec (.dig32 ctx) s = .next (faulted s 0x03#8)) ∧
    (∀ st : HashState 32, s.ctx32[ctx]? = some ⟨false, st⟩ → exec (.dig32 ctx) s = .next (faulted s 0x04#8)) ∧
    (∀ st : HashState 32, s.ctx32[ctx]? = some ⟨true, st⟩ →
      exec (.dig32 ctx) s = .next (responded s ((final32 st).setWidth 64)))

/-- DIG64 (42_finalizer.md R164). -/
def Obligations.Dig64RespondsWithDigestOrFaults : Prop :=
  ∀ (ctx : Nat) (s : State),
    (s.ctx64.length ≤ ctx → exec (.dig64 ctx) s = .next (faulted s 0x03#8)) ∧
    (∀ st : HashState 64, s.ctx64[ctx]? = some ⟨false, st⟩ → exec (.dig64 ctx) s = .next (faulted s 0x04#8)) ∧
    (∀ st : HashState 64, s.ctx64[ctx]? = some ⟨true, st⟩ → exec (.dig64 ctx) s = .next (responded s (final64 st)))

/-- DIG is read-only and repeatable (42_finalizer.md R165): every slot is as before, and a second DIG on the state the first
one left gives the same response. -/
def Obligations.DigIsReadOnlyAndRepeatable : Prop :=
  ∀ (i : Instr) (ctx : Nat) (s t : State), i = .dig32 ctx ∨ i = .dig64 ctx → exec i s = .next t →
    t.ctx32 = s.ctx32 ∧ t.ctx64 = s.ctx64 ∧
    ∃ r u, t.responses = s.responses ++ [r] ∧ exec i t = .next u ∧ u.responses = s.responses ++ [r, r] ∧
      u.ctx32 = s.ctx32 ∧ u.ctx64 = s.ctx64

/-- CPY32 (44_clone_info.md R180). -/
def Obligations.Cpy32CopiesOrFaults : Prop :=
  ∀ (cd cs : Nat) (s : State),
    (s.ctx32.length ≤ cd ∨ s.ctx32.length ≤ cs → exec (.cpy32 cd cs) s = .next (faulted s 0x03#8)) ∧
    (∀ st : HashState 32, cd < s.ctx32.length → s.ctx32[cs]? = some ⟨false, st⟩ →
      exec (.cpy32 cd cs) s = .next (faulted s 0x04#8)) ∧
    (∀ st : HashState 32, cd < s.ctx32.length → s.ctx32[cs]? = some ⟨true, st⟩ →
      exec (.cpy32 cd cs) s = .next (responded { s with ctx32 := s.ctx32.set cd ⟨true, st⟩ } 0#64))

/-- CPY64 (44_clone_info.md R182). -/
def Obligations.Cpy64CopiesOrFaults : Prop :=
  ∀ (cd cs : Nat) (s : State),
    (s.ctx64.length ≤ cd ∨ s.ctx64.length ≤ cs → exec (.cpy64 cd cs) s = .next (faulted s 0x03#8)) ∧
    (∀ st : HashState 64, cd < s.ctx64.length → s.ctx64[cs]? = some ⟨false, st⟩ →
      exec (.cpy64 cd cs) s = .next (faulted s 0x04#8)) ∧
    (∀ st : HashState 64, cd < s.ctx64.length → s.ctx64[cs]? = some ⟨true, st⟩ →
      exec (.cpy64 cd cs) s = .next (responded { s with ctx64 := s.ctx64.set cd ⟨true, st⟩ } 0#64))

/-- Independence after CPY (44_clone_info.md R181): after `CPY cd, cs` with `cd != cs` the two slots hold the same Hash State,
and a command that writes one of them leaves the other as it was; `CPY c, c` of a valid slot changes no slot. -/
def Obligations.ClonesAreIndependent : Prop :=
  ∀ (cd cs : Nat) (s t u : State) (i : Instr),
    (∀ st : HashState 32, cd < s.ctx32.length → s.ctx32[cs]? = some ⟨true, st⟩ → exec (.cpy32 cd cs) s = .next t →
      t.ctx32[cd]? = some ⟨true, st⟩ ∧ t.ctx32[cs]? = some ⟨true, st⟩ ∧
      (cd = cs → t.ctx32 = s.ctx32) ∧
      (cd ≠ cs → exec i t = .next u →
        (writes32 i = some cd → u.ctx32[cs]? = t.ctx32[cs]?) ∧
        (writes32 i = some cs → u.ctx32[cd]? = t.ctx32[cd]?))) ∧
    (∀ st : HashState 64, cd < s.ctx64.length → s.ctx64[cs]? = some ⟨true, st⟩ → exec (.cpy64 cd cs) s = .next t →
      t.ctx64[cd]? = some ⟨true, st⟩ ∧ t.ctx64[cs]? = some ⟨true, st⟩ ∧
      (cd = cs → t.ctx64 = s.ctx64) ∧
      (cd ≠ cs → exec i t = .next u →
        (writes64 i = some cd → u.ctx64[cs]? = t.ctx64[cs]?) ∧
        (writes64 i = some cs → u.ctx64[cd]? = t.ctx64[cd]?)))

/-- HASH32 (43_oneshot.md R172, R170): InvalidArgument, otherwise, its payload being there, the one-shot digest of it; no slot
and no `valid` bit changes. -/
def Obligations.Hash32RespondsWithOneShotDigestOrFaults : Prop :=
  ∀ (len : BitVec 32) (imm : Word64) (s : State),
    (imm.extractLsb' 32 32 ≠ 0#32 → exec (.hash32 len imm) s = .next (faulted s 0x01#8)) ∧
    (∀ payload rest : Bytes, imm.extractLsb' 32 32 = 0#32 → s.stream.drop 16 = payload ++ rest →
      payload.length = len.toNat →
      exec (.hash32 len imm) s = .next (respondedAfter s len.toNat rest
        ((final32 (absorb xxh32 (initState xxh32 (imm.extractLsb' 0 32)) payload)).setWidth 64)))

/-- HASH64 (43_oneshot.md R173, R170): its payload being there, the one-shot digest of it, for every `IMM`. -/
def Obligations.Hash64RespondsWithOneShotDigest : Prop :=
  ∀ (len : BitVec 32) (imm : Word64) (s : State) (payload rest : Bytes),
    s.stream.drop 16 = payload ++ rest → payload.length = len.toNat →
    exec (.hash64 len imm) s = .next (respondedAfter s len.toNat rest
      (final64 (absorb xxh64 (initState xxh64 imm) payload)))

/-- An accepted HASH whose payload is not all there waits for the rest (43_oneshot.md R174; 60_exceptions.md R202): its own
Hash State counts all `LEN` bytes and has been given those there, no slot changes, and there is no response. That the bytes
there are taken at once is the model's choice (notes/assumptions/9.md). -/
def Obligations.HashWaitsForItsPayload : Prop :=
  ∀ (len : BitVec 32) (imm : Word64) (s : State), (s.stream.drop 16).length < len.toNat →
    (imm.extractLsb' 32 32 = 0#32 → exec (.hash32 len imm) s = .next
      { s with
        phase := .payload (.hash32 (feed xxh32 (advance (initState xxh32 (imm.extractLsb' 0 32)) (len.setWidth 64))
          (s.stream.drop 16))) (len.toNat - (s.stream.drop 16).length)
        pos := s.pos + 16 + (s.stream.drop 16).length
        stream := [] }) ∧
    exec (.hash64 len imm) s = .next
      { s with
        phase := .payload (.hash64 (feed xxh64 (advance (initState xxh64 imm) (len.setWidth 64)) (s.stream.drop 16)))
          (len.toNat - (s.stream.drop 16).length)
        pos := s.pos + 16 + (s.stream.drop 16).length
        stream := [] }

/-- INFO32 and INFO64 respond with `INFOWORD_32 = 0x5858483332001004` and `INFOWORD_64 = 0x5858483634002008` and change no
slot (44_clone_info.md R184). -/
def Obligations.InfoRespondsWithAttributeWord : Prop :=
  ∀ s : State,
    exec .info32 s = .next (responded s 0x5858483332001004#64) ∧
    exec .info64 s = .next (responded s 0x5858483634002008#64)

/-! ### Faults -/

/-- Exactly one code is reported, the highest that applies: IllegalCommand, for a descriptor that decodes to no command,
then BadContext, InvalidArgument, ContextInvalid, LengthOverflow; `causeApplies` states each cause by its own rule
(60_exceptions.md R191 to R195, R197). -/
def Obligations.HighestPriorityCauseIsReported : Prop :=
  (∀ (s : State) (e : DecodeError), s.resetRequest = false → s.phase = .idle → 16 ≤ s.stream.length →
    decode s.stream = .error e → step s = .next (faulted s (causeCode .illegalCommand))) ∧
  (∀ (s : State) (i : Instr) (e : Cause), reportedCause s i = some e → exec i s = .next (faulted s (causeCode e)))

/-- When no cause applies and the payload is there the command completes: one response of status 0, the descriptor and the
payload consumed, `FAULT` as it was, IDLE again (60_exceptions.md R196, R198; 10_state.md R30, R33). -/
def Obligations.CommandWithoutCauseCompletes : Prop :=
  ∀ (s : State) (i : Instr), s.phase = .idle → reportedCause s i = none →
    16 + payloadLength i ≤ s.stream.length →
    ∃ t value, exec i s = .next t ∧ t.phase = .idle ∧ t.fault = s.fault ∧
      t.pos = s.pos + (16 + payloadLength i) ∧ t.seq = s.seq + 1 ∧
      t.stream = s.stream.drop (16 + payloadLength i) ∧ t.responses = s.responses ++ [⟨0x00#8, value⟩]

/-- A descriptor that decodes to no command takes IllegalCommand: code `0x02`, no slot changed, the descriptor consumed, the
sequencer halted (60_exceptions.md R192; 30_encoding.md R80). -/
def Obligations.UndecodableDescriptorTakesIllegalCommand : Prop :=
  ∀ (s : State) (e : DecodeError), s.resetRequest = false → s.phase = .idle → 16 ≤ s.stream.length →
    decode s.stream = .error e → step s = .next (faulted s 0x02#8)

/-- Faults are precise (60_exceptions.md R200): a step that ends in HALTED left every slot and every `valid` bit as it was,
responded `(e, 0)`, put `e` into `FAULT`, and consumed the descriptor and no payload byte. -/
def Obligations.FaultEntryIsPrecise : Prop :=
  ∀ s t : State, step s = .next t → t.phase = .halted →
    s.phase = .idle ∧ ∃ e : Cause, t = faulted s (causeCode e)

/-- Which decoded command raises which fault (60_exceptions.md R198): a command that halts raised one of its row, and every
fault of a row is raised by some operands of the command in some state. -/
def Obligations.EachCommandRaisesItsFaults : Prop :=
  (∀ (i : Instr) (s t : State), s.phase = .idle → exec i s = .next t → t.phase = .halted →
    ∃ e ∈ raisable i, t = faulted s (causeCode e)) ∧
  (∀ (i : Instr), ∀ e ∈ raisable i, ∃ (j : Instr) (s : State), j.mnemonic = i.mnemonic ∧
    exec j s = .next (faulted s (causeCode e)))

/-- `FAULT != 0` exactly when `phase = HALTED`: kept by every step from every state in which it holds, and a step into HALTED
writes the code of its response (10_state.md R32). -/
def Obligations.FaultRegisterTellsHalted : Prop :=
  ∀ s t : State, (s.fault ≠ 0#8 ↔ s.phase = .halted) → step s = .next t →
    (t.fault ≠ 0#8 ↔ t.phase = .halted) ∧
    (t.phase = .halted → t.responses = s.responses ++ [⟨t.fault, 0#64⟩])

/-- What a step does in each way a run stands (60_exceptions.md R201, R202; 70_reset_and_hazards.md R240): halted, it has no
next state; waiting, nothing changes; otherwise stream bytes are consumed. That a step of a halted machine is the model's
fault `halted`, and one of a waiting machine its own state, are the model's choices (notes/assumptions/10.md, 11.md). -/
def Obligations.RunStatusSaysWhatAStepDoes : Prop :=
  ∀ s : State, s.resetRequest = false →
    (runStatus s = .faulted → step s = .fault .halted) ∧
    (runStatus s = .waitingDescriptor ∨ runStatus s = .waitingPayload ∨ runStatus s = .drained → step s = .next s) ∧
    (runStatus s = .running → Inv s → ∃ t, step s = .next t ∧ t.stream.length < s.stream.length)

/-! ### Reset -/

/-- The machine right after reset, for every `NCTX` (10_state.md R40): no slot valid, IDLE, `FAULT`, `pos` and `seq` 0, no
unconsumed byte. -/
def Obligations.ResetStateIsTheTable : Prop :=
  ∀ n : Nat,
    (State.resetWith n).ctx32.length = n ∧ (State.resetWith n).ctx64.length = n ∧
    (∀ slot ∈ (State.resetWith n).ctx32, slot.valid = false) ∧
    (∀ slot ∈ (State.resetWith n).ctx64, slot.valid = false) ∧
    (State.resetWith n).phase = .idle ∧ (State.resetWith n).fault = 0#8 ∧ (State.resetWith n).pos = 0 ∧
    (State.resetWith n).seq = 0 ∧ (State.resetWith n).stream = []

/-- The reset event, from any phase (70_reset_and_hazards.md R221, R222): every slot becomes invalid, IDLE, `FAULT = 0`, the
counters 0, the unconsumed bytes dropped; no response is made and none is withdrawn. That reset is asserted as a field a step
reads first, and that the step clears it (`t.resetRequest = false`), is the model's choice (notes/assumptions/8.md). -/
def Obligations.ResetEventReturnsToTheTable : Prop :=
  ∀ s : State, ∃ t, step s.assertReset = .next t ∧
    t.ctx32.length = s.ctx32.length ∧ t.ctx64.length = s.ctx64.length ∧
    (∀ slot ∈ t.ctx32, slot.valid = false) ∧ (∀ slot ∈ t.ctx64, slot.valid = false) ∧
    t.phase = .idle ∧ t.fault = 0#8 ∧ t.pos = 0 ∧ t.seq = 0 ∧ t.stream = [] ∧
    t.responses = s.responses ∧ t.resetRequest = false

/-- Reset is the only way out of HALTED and the only way a `valid` bit returns to 0, and the host can cause it in any state
(70_reset_and_hazards.md R220). That it is a field a step reads first is the model's choice (notes/assumptions/8.md). -/
def Obligations.OnlyResetLeavesHaltedOrClearsValid : Prop :=
  (∀ s : State, step s.assertReset = .next s.assertReset.applyReset ∧ s.assertReset.applyReset.phase = .idle) ∧
  ∀ s t : State, s.resetRequest = false → step s = .next t →
    s.phase ≠ .halted ∧
    (∀ (c : Nat) (st : HashState 32), s.ctx32[c]? = some ⟨true, st⟩ → ∃ st' : HashState 32, t.ctx32[c]? = some ⟨true, st'⟩) ∧
    (∀ (c : Nat) (st : HashState 64), s.ctx64[c]? = some ⟨true, st⟩ → ∃ st' : HashState 64, t.ctx64[c]? = some ⟨true, st'⟩)

/-! ### Frames and isolation -/

/-- The frame of every command: no slot but its destination changes, none of the other engine's, nor the number of slots, nor
the reset input; `FAULT` changes only where the command halts (10_state.md R20, R29; 60_exceptions.md R200). -/
def Obligations.CommandChangesOnlyItsDestination : Prop :=
  ∀ (i : Instr) (s t : State), exec i s = .next t →
    (∀ c, writes32 i ≠ some c → t.ctx32[c]? = s.ctx32[c]?) ∧
    (∀ c, writes64 i ≠ some c → t.ctx64[c]? = s.ctx64[c]?) ∧
    t.ctx32.length = s.ctx32.length ∧ t.ctx64.length = s.ctx64.length ∧
    t.resetRequest = s.resetRequest ∧ (t.phase ≠ .halted → t.fault = s.fault)

/-- The frame of a payload step: only the slot of the UPD in progress changes; a HASH in progress changes no slot
(10_state.md R20, R31; 43_oneshot.md R174). -/
def Obligations.PayloadStepChangesOnlyItsSlot : Prop :=
  ∀ (s t : State) (job : Job) (remaining : Nat), s.resetRequest = false → s.phase = .payload job remaining →
    step s = .next t →
    (∀ c, job ≠ .upd32 c → t.ctx32[c]? = s.ctx32[c]?) ∧
    (∀ c, job ≠ .upd64 c → t.ctx64[c]? = s.ctx64[c]?) ∧
    t.ctx32.length = s.ctx32.length ∧ t.ctx64.length = s.ctx64.length ∧ t.fault = s.fault

/-- The result of a command depends only on the slots it names, its descriptor and its payload (10_state.md R37): two machines
with as many slots that agree on the named slots and the stream, however much else differs, give the same response, the same
phase and the same named slots. -/
def Obligations.ResultDependsOnlyOnNamedSlots : Prop :=
  ∀ (i : Instr) (s s' t t' : State),
    s.ctx32.length = s'.ctx32.length → s.ctx64.length = s'.ctx64.length →
    (∀ c, names32 i c → s.ctx32[c]? = s'.ctx32[c]?) → (∀ c, names64 i c → s.ctx64[c]? = s'.ctx64[c]?) →
    s.stream = s'.stream → s.phase = .idle → s'.phase = .idle →
    exec i s = .next t → exec i s' = .next t' →
    t.phase = t'.phase ∧ t.stream = t'.stream ∧
    (∃ new, t.responses = s.responses ++ new ∧ t'.responses = s'.responses ++ new) ∧
    (∀ c, names32 i c → t.ctx32[c]? = t'.ctx32[c]?) ∧ (∀ c, names64 i c → t.ctx64[c]? = t'.ctx64[c]?)

/-- A valid slot that the step neither constructs anew nor copies onto keeps its seed, and its `totalLength` does not fall
(10_state.md R21, R23; 41_hash_state.md R123). -/
def Obligations.SeedStaysAndLengthGrows : Prop :=
  ∀ (s t : State) (c : Nat), s.resetRequest = false → step s = .next t →
    (∀ st : HashState 32, s.ctx32[c]? = some ⟨true, st⟩ →
      (s.phase = .idle → (∀ imm, s.fetch ≠ .command (.init32 c imm)) ∧ (∀ d, s.fetch ≠ .command (.cpy32 c d))) →
      ∃ st' : HashState 32, t.ctx32[c]? = some ⟨true, st'⟩ ∧ st'.seed = st.seed ∧ st.totalLength.toNat ≤ st'.totalLength.toNat) ∧
    (∀ st : HashState 64, s.ctx64[c]? = some ⟨true, st⟩ →
      (s.phase = .idle → (∀ imm, s.fetch ≠ .command (.init64 c imm)) ∧ (∀ d, s.fetch ≠ .command (.cpy64 c d))) →
      ∃ st' : HashState 64, t.ctx64[c]? = some ⟨true, st'⟩ ∧ st'.seed = st.seed ∧ st.totalLength.toNat ≤ st'.totalLength.toNat)

/-- Responses are made one at a time and never withdrawn: a step adds none, or one that `seq` counts, whose status is a code
of 60_exceptions.md R190 and whose value is 0 unless the status is 0 (10_state.md R30, R33). -/
def Obligations.OneResponsePerCommand : Prop :=
  ∀ s t : State, s.resetRequest = false → step s = .next t →
    (t.responses = s.responses ∧ t.seq = s.seq) ∨
    ∃ r, t.responses = s.responses ++ [r] ∧ t.seq = s.seq + 1 ∧ r.status.toNat ≤ 5 ∧
      (r.status ≠ 0x00#8 → r.value = 0#64)

/-- The stream is consumed from its front, once, and `pos` counts what is consumed (10_state.md R30, R36; 20_memory.md
R61). -/
def Obligations.StreamIsConsumedInOrder : Prop :=
  ∀ s t : State, s.resetRequest = false → step s = .next t →
    ∃ n, n ≤ s.stream.length ∧ t.stream = s.stream.drop n ∧ t.pos = s.pos + n

/-! ### Arithmetic, Block Mixer and Hash State -/

/-- `rotl_W(x, r) = ((x * 2^r) mod 2^W) + floor(x / 2^(W - r))`, and bit `(i + r) mod W` of it is bit `i` of `x`
(40_block_mixer.md R102). -/
def Obligations.RotateIsCircular : Prop :=
  ∀ (w r : Nat) (x : BitVec w), 0 < r → r < w →
    (rotl x r).toNat = x.toNat * 2 ^ r % 2 ^ w + x.toNat / 2 ^ (w - r) ∧
    ∀ i, i < w → (rotl x r).getLsbD ((i + r) % w) = x.getLsbD i

/-- The read primitives are the sums of 20_memory.md R51. -/
def Obligations.ReadsAreLittleEndianSums : Prop :=
  ∀ (s : Bytes) (p : Nat),
    (p + 1 ≤ s.length → s[p]? = some (readU8 s p)) ∧
    (p + 4 ≤ s.length → (readLE 32 s p).toNat =
      (readU8 s p).toNat + 2 ^ 8 * (readU8 s (p + 1)).toNat + 2 ^ 16 * (readU8 s (p + 2)).toNat +
        2 ^ 24 * (readU8 s (p + 3)).toNat) ∧
    (p + 8 ≤ s.length → (readLE 64 s p).toNat =
      (readU8 s p).toNat + 2 ^ 8 * (readU8 s (p + 1)).toNat + 2 ^ 16 * (readU8 s (p + 2)).toNat +
        2 ^ 24 * (readU8 s (p + 3)).toNat + 2 ^ 32 * (readU8 s (p + 4)).toNat +
        2 ^ 40 * (readU8 s (p + 5)).toNat + 2 ^ 48 * (readU8 s (p + 6)).toNat +
        2 ^ 56 * (readU8 s (p + 7)).toNat)

/-- The round functions and the construction lanes with their constants written out (40_block_mixer.md R100, R101, R107,
R108; 41_hash_state.md R120). -/
def Obligations.RoundAndConstructionUseTheConstants : Prop :=
  (∀ acc input : Word32, round xxh32 acc input = rotl (acc + input * 2246822519#32) 13 * 2654435761#32) ∧
  (∀ acc input : Word64,
    round xxh64 acc input = rotl (acc + input * 14029467366897019727#64) 31 * 11400714785074694791#64) ∧
  (∀ seed : Word32, initState xxh32 seed =
    ⟨seed, ⟨seed + 2654435761#32 + 2246822519#32, seed + 2246822519#32, seed, seed - 2654435761#32⟩, 0#64, []⟩) ∧
  (∀ seed : Word64, initState xxh64 seed =
    ⟨seed, ⟨seed + 11400714785074694791#64 + 14029467366897019727#64, seed + 14029467366897019727#64, seed,
      seed - 11400714785074694791#64⟩, 0#64, []⟩)

/-- Lane `i` of the mixed block depends only on lane `i` and on word `i`, the `i`th of the four consecutive groups that tile
the block (40_block_mixer.md R109 to R111; 20_memory.md R52). -/
def Obligations.MixedLanesAreIndependent : Prop :=
  (∀ (v : Lanes 32) (b0 b1 b2 b3 : Bytes), b0.length = 4 → b1.length = 4 → b2.length = 4 → b3.length = 4 →
    mix xxh32 v (b0 ++ b1 ++ b2 ++ b3) =
      ⟨round xxh32 v.lane0 (readLE 32 b0 0), round xxh32 v.lane1 (readLE 32 b1 0),
        round xxh32 v.lane2 (readLE 32 b2 0), round xxh32 v.lane3 (readLE 32 b3 0)⟩) ∧
  (∀ (v : Lanes 64) (b0 b1 b2 b3 : Bytes), b0.length = 8 → b1.length = 8 → b2.length = 8 → b3.length = 8 →
    mix xxh64 v (b0 ++ b1 ++ b2 ++ b3) =
      ⟨round xxh64 v.lane0 (readLE 64 b0 0), round xxh64 v.lane1 (readLE 64 b1 0),
        round xxh64 v.lane2 (readLE 64 b2 0), round xxh64 v.lane3 (readLE 64 b3 0)⟩)

/-- `absorb` is the definition of 41_hash_state.md R125, for any engine shape with a block: `fold` takes blocks from the front
while there is a full one, `floor((bufLen + len) / BLOCK)` of them, and the new pending bytes are what it leaves, fewer than a
block. -/
def Obligations.AbsorbFoldsFullBlocksFromTheFront : Prop :=
  ∀ (w : Nat) (E : Engine w), 0 < E.block →
    (∀ (v : Lanes w) (a : Bytes),
      fold E v a = if E.block ≤ a.length then fold E (mix E v (a.take E.block)) (a.drop E.block) else (v, a)) ∧
    (∀ (st : HashState w) (bytes : Bytes),
      (absorb E st bytes).seed = st.seed ∧
      (absorb E st bytes).v = (fold E st.v (st.buf ++ bytes)).1 ∧
      (absorb E st bytes).buf = (fold E st.v (st.buf ++ bytes)).2 ∧
      fold E st.v (st.buf ++ bytes) = foldBlocks E ((st.buf.length + bytes.length) / E.block) st.v (st.buf ++ bytes) ∧
      (absorb E st bytes).buf.length = (st.buf.length + bytes.length) % E.block ∧
      (st.totalLength.toNat + bytes.length < 2 ^ 64 →
        (absorb E st bytes).totalLength.toNat = st.totalLength.toNat + bytes.length))

/-- Chunking invariance as a law of `absorb`, for both engines and any other with a block (41_hash_state.md R133). -/
def Obligations.AbsorbIsChunkingInvariant : Prop :=
  ∀ (w : Nat) (E : Engine w) (st : HashState w), st.buf.length < E.block →
    (∀ x y : Bytes, absorb E (absorb E st x) y = absorb E st (x ++ y)) ∧ absorb E st [] = st

/-- The byte-serial state machine of 41_hash_state.md R130 reaches `absorb` of the payload. -/
def Obligations.ByteSerialMachineEqualsAbsorb : Prop :=
  ∀ (w : Nat) (E : Engine w) (st : HashState w) (payload : Bytes), st.buf.length < E.block →
    payload.foldl (pushByte E) (advance st (BitVec.ofNat 64 payload.length)) = absorb E st payload

/-- However the payload bytes are split over steps, the result is the same (41_hash_state.md R130, R132): with too few bytes
there, pumping them and then the bytes supplied later is pumping all of them at once. -/
def Obligations.PayloadSplitDoesNotMatter : Prop :=
  ∀ (s : State) (job : Job) (remaining : Nat) (later : Bytes), s.phase = .payload job remaining →
    s.stream.length < remaining → (s.pump.supply later).pump = (s.supply later).pump

/-! ### Finalizer -/

/-- `final_32` with its stages and constants written out (42_finalizer.md R141, R143, R157, R159). -/
def Obligations.Final32IsItsStages : Prop :=
  ∀ st : HashState 32, ∃ h h1 h2 : Word32,
    h = tail32 (if st.totalLength.toNat < 16 then st.seed + 374761393#32 + st.totalLength.setWidth 32
      else rotl st.v.lane0 1 + rotl st.v.lane1 7 + rotl st.v.lane2 12 + rotl st.v.lane3 18 +
        st.totalLength.setWidth 32) st.buf ∧
    h1 = (h ^^^ (h >>> 15)) * 2246822519#32 ∧
    h2 = (h1 ^^^ (h1 >>> 13)) * 3266489917#32 ∧
    final32 st = h2 ^^^ (h2 >>> 16)

/-- `final_64` with its stages and constants written out, the mergeRounds in lane order 0, 1, 2, 3 (42_finalizer.md R142,
R144, R146, R147, R158, R160). Rests on `PRIME64_4` and on this order, which R101 and R146 themselves mark as general
knowledge and as a decision of the spec (notes/assumptions/3.md, 4.md). -/
def Obligations.Final64IsItsStages : Prop :=
  ∀ st : HashState 64, ∃ m0 m1 m2 m3 m4 h h1 h2 : Word64,
    m0 = rotl st.v.lane0 1 + rotl st.v.lane1 7 + rotl st.v.lane2 12 + rotl st.v.lane3 18 ∧
    m1 = (m0 ^^^ round xxh64 0#64 st.v.lane0) * 11400714785074694791#64 + 9650029242287828579#64 ∧
    m2 = (m1 ^^^ round xxh64 0#64 st.v.lane1) * 11400714785074694791#64 + 9650029242287828579#64 ∧
    m3 = (m2 ^^^ round xxh64 0#64 st.v.lane2) * 11400714785074694791#64 + 9650029242287828579#64 ∧
    m4 = (m3 ^^^ round xxh64 0#64 st.v.lane3) * 11400714785074694791#64 + 9650029242287828579#64 ∧
    h = tail64 (if st.totalLength.toNat < 32 then st.seed + 2870177450012600261#64 + st.totalLength
      else m4 + st.totalLength) st.buf ∧
    h1 = (h ^^^ (h >>> 33)) * 14029467366897019727#64 ∧
    h2 = (h1 ^^^ (h1 >>> 29)) * 1609587929392839161#64 ∧
    final64 st = h2 ^^^ (h2 >>> 32)

/-- `tail32` is the loop of 42_finalizer.md R152 over the steps of R150 and R151: a 4-byte step while at least 4 bytes remain,
then a 1-byte step while one remains. -/
def Obligations.Tail32IsItsLoop : Prop :=
  ∀ (h : Word32) (t : Bytes),
    (4 ≤ t.length → tail32 h t =
      tail32 (rotl (h + readLE 32 t 0 * 3266489917#32) 17 * 668265263#32) (t.drop 4)) ∧
    (0 < t.length → t.length < 4 → tail32 h t =
      tail32 (rotl (h + (readU8 t 0).setWidth 32 * 374761393#32) 11 * 2654435761#32) (t.drop 1)) ∧
    tail32 h [] = h

/-- `tail64` is the loop of 42_finalizer.md R156 over the steps of R153, R154 and R155: 8-byte, then 4-byte, then 1-byte.
Rests on `PRIME64_4`, which R101 itself marks as general knowledge (notes/assumptions/3.md). -/
def Obligations.Tail64IsItsLoop : Prop :=
  ∀ (h : Word64) (t : Bytes),
    (8 ≤ t.length → tail64 h t =
      tail64 (rotl (h ^^^ round xxh64 0#64 (readLE 64 t 0)) 27 * 11400714785074694791#64 + 9650029242287828579#64)
        (t.drop 8)) ∧
    (4 ≤ t.length → t.length < 8 → tail64 h t =
      tail64 (rotl (h ^^^ (readLE 32 t 0).setWidth 64 * 11400714785074694791#64) 23 * 14029467366897019727#64 +
        1609587929392839161#64) (t.drop 4)) ∧
    (0 < t.length → t.length < 4 → tail64 h t =
      tail64 (rotl (h ^^^ (readU8 t 0).setWidth 64 * 2870177450012600261#64) 11 * 11400714785074694791#64)
        (t.drop 1)) ∧
    tail64 h [] = h

/-- `digest_bytes_W(h)[k] = (h >> (8 * (n - 1 - k))) mod 256`, most significant byte first, so that the bytes in reverse spell
`h` little-endian (42_finalizer.md R162). -/
def Obligations.DigestBytesAreMostSignificantFirst : Prop :=
  (∀ h : Word32, (digestBytes xxh32 h).length = 4 ∧ leNat (digestBytes xxh32 h).reverse = h.toNat ∧
    ∀ k, k < 4 → (digestBytes xxh32 h)[k]? = some (BitVec.ofNat 8 (h.toNat / 2 ^ (8 * (4 - 1 - k)) % 256))) ∧
  (∀ h : Word64, (digestBytes xxh64 h).length = 8 ∧ leNat (digestBytes xxh64 h).reverse = h.toNat ∧
    ∀ k, k < 8 → (digestBytes xxh64 h)[k]? = some (BitVec.ofNat 8 (h.toNat / 2 ^ (8 * (8 - 1 - k)) % 256)))

/-- `hexdigest_W(h)` is `h` in lowercase hexadecimal, zero-padded to `2 * digest_size` characters (42_finalizer.md R163). -/
def Obligations.HexDigestIsPaddedLowercaseHex : Prop :=
  (∀ h : Word32, (hexDigest xxh32 h).length = 8 ∧
    (∀ c ∈ hexDigest xxh32 h, c ∈ "0123456789abcdef".toList) ∧
    digitsValue 16 (hexDigest xxh32 h) = some h.toNat) ∧
  (∀ h : Word64, (hexDigest xxh64 h).length = 16 ∧
    (∀ c ∈ hexDigest xxh64 h, c ∈ "0123456789abcdef".toList) ∧
    digitsValue 16 (hexDigest xxh64 h) = some h.toNat)

/-! ### Building command streams -/

/-- `UPDL` cuts a message into consecutive parts of at most `MAXLEN` bytes that concatenate to it (30_encoding.md R92),
wherever it cuts: where is the model's choice (notes/assumptions/20.md). -/
def Obligations.UpdlPartsConcatenate : Prop :=
  ∀ bytes : Bytes, (updlParts bytes).flatten = bytes ∧ ∀ part ∈ updlParts bytes, part.length ≤ 2 ^ 32 - 1

/-- Whatever the assembler accepts can be encoded, with `LEN` the byte count of its payload; so an index above 255 or a seed
above `2^64 - 1` is refused before encoding (30_encoding.md R77, R90, R92). -/
def Obligations.AssembledCommandsAreWellFormed : Prop :=
  ∀ (line : List Char) (cs : List Command), assembleLine line = some cs →
    ∀ c ∈ cs, c.instr.WellFormed ∧ c.payload.length = payloadLength c.instr

/-! ### The whole machine -/

/-- The reset state meets the invariant for every `NCTX` from 1 to 256, and so does `State.reset`. -/
def Obligations.ResetMeetsTheInvariant : Prop :=
  (∀ n, 1 ≤ n → n ≤ 256 → Inv (State.resetWith n)) ∧ Inv State.reset

/-- Every step keeps the invariant (10_state.md R20, R27, R28, R31, R32): one `NCTX`; `FAULT != 0` exactly in HALTED; every
valid slot is the state that constructing from its seed and absorbing some message leaves, but for the payload bytes still to
come; the command in progress is one that was accepted. -/
def Obligations.EveryStepKeepsTheInvariant : Prop :=
  ∀ s t : State, Inv s → step s = .next t → Inv t

/-- The numbers of 10_state.md R27 for every valid slot in IDLE: `bufLen < BLOCK`, `bufLen = totalLength mod BLOCK`, and the
lanes are what folding `floor(totalLength / BLOCK)` blocks of the message leaves; below one block they are the construction
lanes (42_finalizer.md R140). -/
def Obligations.RestingSlotsKeepTheirNumbers : Prop :=
  ∀ s : State, Inv s → s.phase = .idle →
    (∀ (c : Nat) (st : HashState 32), s.ctx32[c]? = some ⟨true, st⟩ →
      st.buf.length < 16 ∧ st.buf.length = st.totalLength.toNat % 16 ∧
      (st.totalLength.toNat < 16 → st.v = initLanes xxh32 st.seed) ∧
      ∃ message : Bytes, message.length = st.totalLength.toNat ∧
        foldBlocks xxh32 (st.totalLength.toNat / 16) (initLanes xxh32 st.seed) message = (st.v, st.buf)) ∧
    (∀ (c : Nat) (st : HashState 64), s.ctx64[c]? = some ⟨true, st⟩ →
      st.buf.length < 32 ∧ st.buf.length = st.totalLength.toNat % 32 ∧
      (st.totalLength.toNat < 32 → st.v = initLanes xxh64 st.seed) ∧
      ∃ message : Bytes, message.length = st.totalLength.toNat ∧
        foldBlocks xxh64 (st.totalLength.toNat / 32) (initLanes xxh64 st.seed) message = (st.v, st.buf))

/-- The one-shot digest and the incremental digest agree (43_oneshot.md R171): in a machine in IDLE, INIT of a slot, UPDs of
it whose payloads concatenate to `B`, and DIG, executed in a row with their payloads in the stream, respond 0 to each but the
last, and to the last with `hash_W(B, s)`. -/
def Obligations.StreamedDigestIsOneShotDigest : Prop :=
  ∀ (ctx : Nat) (imm : Word64) (parts : List Bytes) (rest : Bytes) (s : State), s.phase = .idle →
    (∀ part ∈ parts, part.length < 2 ^ 32) → parts.flatten.length < 2 ^ 64 →
    (ctx < s.ctx32.length → imm.toNat < 2 ^ 32 →
      s.stream = streamOf (plain (.init32 ctx imm) :: parts.map (upd32Command ctx) ++ [plain (.dig32 ctx)]) ++ rest →
      ∃ t, execAll ((plain (.init32 ctx imm) :: parts.map (upd32Command ctx) ++ [plain (.dig32 ctx)]).map (·.instr)) s
          = .next t ∧
        t.phase = .idle ∧ t.stream = rest ∧
        t.responses = s.responses ++ List.replicate (parts.length + 1) ⟨0x00#8, 0#64⟩ ++
          [⟨0x00#8, (hash32 parts.flatten (imm.setWidth 32)).setWidth 64⟩]) ∧
    (ctx < s.ctx64.length →
      s.stream = streamOf (plain (.init64 ctx imm) :: parts.map (upd64Command ctx) ++ [plain (.dig64 ctx)]) ++ rest →
      ∃ t, execAll ((plain (.init64 ctx imm) :: parts.map (upd64Command ctx) ++ [plain (.dig64 ctx)]).map (·.instr)) s
          = .next t ∧
        t.phase = .idle ∧ t.stream = rest ∧
        t.responses = s.responses ++ List.replicate (parts.length + 1) ⟨0x00#8, 0#64⟩ ++
          [⟨0x00#8, hash64 parts.flatten imm⟩])
end

