-- ==== Sys2Proof/Laws/Bytes.lean ====
section
/-! SUPPORT. Byte order: little-endian numbers and byte sequences are the same thing. -/

namespace Sys2Proof.Machine

@[simp] theorem leBytes_length (n x : Nat) : (leBytes n x).length = n := by
  induction n generalizing x with
  | zero => rfl
  | succ n ih => simp [leBytes, ih]

/-- A byte sequence spells a number below `2^(8 * length)`. -/
theorem leNat_lt (bs : Bytes) : leNat bs < 2 ^ (8 * bs.length) := by
  induction bs with
  | nil => simp [leNat]
  | cons b bs ih =>
    have hb := b.isLt
    rw [List.length_cons, Nat.mul_add, Nat.mul_one, Nat.pow_add, leNat]
    omega

/-- Reading back the low `n` bytes of a number gives the number modulo `2^(8 * n)`. -/
theorem leNat_leBytes (n x : Nat) : leNat (leBytes n x) = x % 2 ^ (8 * n) := by
  induction n generalizing x with
  | zero => simp [leBytes, leNat, Nat.mod_one]
  | succ n ih =>
    rw [leBytes, leNat, ih, BitVec.toNat_ofNat, Nat.mul_add, Nat.mul_one, Nat.add_comm, Nat.pow_add,
      Nat.mul_comm (2 ^ (8 * n)), Nat.mod_mul, Nat.add_comm]

/-- The bytes of the number a sequence spells are the sequence. -/
theorem leBytes_leNat (bs : Bytes) : leBytes bs.length (leNat bs) = bs := by
  induction bs with
  | nil => rfl
  | cons b bs ih =>
    have hb : b.toNat < 2 ^ 8 := b.isLt
    have hdiv : (b.toNat + 2 ^ 8 * leNat bs) / 2 ^ 8 = leNat bs := by omega
    have hmod : BitVec.ofNat 8 (b.toNat + 2 ^ 8 * leNat bs) = b := by
      apply BitVec.eq_of_toNat_eq
      rw [BitVec.toNat_ofNat]
      omega
    rw [List.length_cons, leBytes, leNat, hdiv, hmod, ih]

@[simp] theorem encode_length (i : Instr) : (encode i).length = 16 := leBytes_length 16 _

@[simp] theorem tableBytes_length (nbits w : Nat) : (tableBytes nbits w).length = 16 := leBytes_length 16 _

end Sys2Proof.Machine
end

