-- ==== Sys2Proof/Laws/State.lean ====
section
/-! SUPPORT. One lemma per field per update of the state, so that no later proof unfolds a record update. -/

namespace Sys2Proof.Machine

variable (s : State)

/-! ### `State.setSlot32` -/

@[simp] theorem State.setSlot32_ctx32 (c : Nat) (slot : Slot 32) : (s.setSlot32 c slot).ctx32 = s.ctx32.set c slot := rfl
@[simp] theorem State.setSlot32_ctx64 (c : Nat) (slot : Slot 32) : (s.setSlot32 c slot).ctx64 = s.ctx64 := rfl
@[simp] theorem State.setSlot32_phase (c : Nat) (slot : Slot 32) : (s.setSlot32 c slot).phase = s.phase := rfl
@[simp] theorem State.setSlot32_fault (c : Nat) (slot : Slot 32) : (s.setSlot32 c slot).fault = s.fault := rfl
@[simp] theorem State.setSlot32_pos (c : Nat) (slot : Slot 32) : (s.setSlot32 c slot).pos = s.pos := rfl
@[simp] theorem State.setSlot32_seq (c : Nat) (slot : Slot 32) : (s.setSlot32 c slot).seq = s.seq := rfl
@[simp] theorem State.setSlot32_stream (c : Nat) (slot : Slot 32) : (s.setSlot32 c slot).stream = s.stream := rfl
@[simp] theorem State.setSlot32_responses (c : Nat) (slot : Slot 32) : (s.setSlot32 c slot).responses = s.responses := rfl
@[simp] theorem State.setSlot32_resetRequest (c : Nat) (slot : Slot 32) : (s.setSlot32 c slot).resetRequest = s.resetRequest := rfl

/-! ### `State.setSlot64` -/

@[simp] theorem State.setSlot64_ctx32 (c : Nat) (slot : Slot 64) : (s.setSlot64 c slot).ctx32 = s.ctx32 := rfl
@[simp] theorem State.setSlot64_ctx64 (c : Nat) (slot : Slot 64) : (s.setSlot64 c slot).ctx64 = s.ctx64.set c slot := rfl
@[simp] theorem State.setSlot64_phase (c : Nat) (slot : Slot 64) : (s.setSlot64 c slot).phase = s.phase := rfl
@[simp] theorem State.setSlot64_fault (c : Nat) (slot : Slot 64) : (s.setSlot64 c slot).fault = s.fault := rfl
@[simp] theorem State.setSlot64_pos (c : Nat) (slot : Slot 64) : (s.setSlot64 c slot).pos = s.pos := rfl
@[simp] theorem State.setSlot64_seq (c : Nat) (slot : Slot 64) : (s.setSlot64 c slot).seq = s.seq := rfl
@[simp] theorem State.setSlot64_stream (c : Nat) (slot : Slot 64) : (s.setSlot64 c slot).stream = s.stream := rfl
@[simp] theorem State.setSlot64_responses (c : Nat) (slot : Slot 64) : (s.setSlot64 c slot).responses = s.responses := rfl
@[simp] theorem State.setSlot64_resetRequest (c : Nat) (slot : Slot 64) : (s.setSlot64 c slot).resetRequest = s.resetRequest := rfl

/-! ### `State.updateSlot32` -/

@[simp] theorem State.updateSlot32_ctx32 (c : Nat) (f : HashState 32 → HashState 32) : (s.updateSlot32 c f).ctx32 = s.ctx32.modify c fun slot => { slot with st := f slot.st } := rfl
@[simp] theorem State.updateSlot32_ctx64 (c : Nat) (f : HashState 32 → HashState 32) : (s.updateSlot32 c f).ctx64 = s.ctx64 := rfl
@[simp] theorem State.updateSlot32_phase (c : Nat) (f : HashState 32 → HashState 32) : (s.updateSlot32 c f).phase = s.phase := rfl
@[simp] theorem State.updateSlot32_fault (c : Nat) (f : HashState 32 → HashState 32) : (s.updateSlot32 c f).fault = s.fault := rfl
@[simp] theorem State.updateSlot32_pos (c : Nat) (f : HashState 32 → HashState 32) : (s.updateSlot32 c f).pos = s.pos := rfl
@[simp] theorem State.updateSlot32_seq (c : Nat) (f : HashState 32 → HashState 32) : (s.updateSlot32 c f).seq = s.seq := rfl
@[simp] theorem State.updateSlot32_stream (c : Nat) (f : HashState 32 → HashState 32) : (s.updateSlot32 c f).stream = s.stream := rfl
@[simp] theorem State.updateSlot32_responses (c : Nat) (f : HashState 32 → HashState 32) : (s.updateSlot32 c f).responses = s.responses := rfl
@[simp] theorem State.updateSlot32_resetRequest (c : Nat) (f : HashState 32 → HashState 32) : (s.updateSlot32 c f).resetRequest = s.resetRequest := rfl

/-! ### `State.updateSlot64` -/

@[simp] theorem State.updateSlot64_ctx32 (c : Nat) (f : HashState 64 → HashState 64) : (s.updateSlot64 c f).ctx32 = s.ctx32 := rfl
@[simp] theorem State.updateSlot64_ctx64 (c : Nat) (f : HashState 64 → HashState 64) : (s.updateSlot64 c f).ctx64 = s.ctx64.modify c fun slot => { slot with st := f slot.st } := rfl
@[simp] theorem State.updateSlot64_phase (c : Nat) (f : HashState 64 → HashState 64) : (s.updateSlot64 c f).phase = s.phase := rfl
@[simp] theorem State.updateSlot64_fault (c : Nat) (f : HashState 64 → HashState 64) : (s.updateSlot64 c f).fault = s.fault := rfl
@[simp] theorem State.updateSlot64_pos (c : Nat) (f : HashState 64 → HashState 64) : (s.updateSlot64 c f).pos = s.pos := rfl
@[simp] theorem State.updateSlot64_seq (c : Nat) (f : HashState 64 → HashState 64) : (s.updateSlot64 c f).seq = s.seq := rfl
@[simp] theorem State.updateSlot64_stream (c : Nat) (f : HashState 64 → HashState 64) : (s.updateSlot64 c f).stream = s.stream := rfl
@[simp] theorem State.updateSlot64_responses (c : Nat) (f : HashState 64 → HashState 64) : (s.updateSlot64 c f).responses = s.responses := rfl
@[simp] theorem State.updateSlot64_resetRequest (c : Nat) (f : HashState 64 → HashState 64) : (s.updateSlot64 c f).resetRequest = s.resetRequest := rfl

/-! ### `State.consume` -/

@[simp] theorem State.consume_ctx32 (n : Nat) : (s.consume n).ctx32 = s.ctx32 := rfl
@[simp] theorem State.consume_ctx64 (n : Nat) : (s.consume n).ctx64 = s.ctx64 := rfl
@[simp] theorem State.consume_phase (n : Nat) : (s.consume n).phase = s.phase := rfl
@[simp] theorem State.consume_fault (n : Nat) : (s.consume n).fault = s.fault := rfl
@[simp] theorem State.consume_pos (n : Nat) : (s.consume n).pos = s.pos + n := rfl
@[simp] theorem State.consume_seq (n : Nat) : (s.consume n).seq = s.seq := rfl
@[simp] theorem State.consume_stream (n : Nat) : (s.consume n).stream = s.stream.drop n := rfl
@[simp] theorem State.consume_responses (n : Nat) : (s.consume n).responses = s.responses := rfl
@[simp] theorem State.consume_resetRequest (n : Nat) : (s.consume n).resetRequest = s.resetRequest := rfl

/-! ### `State.consumeDescriptor` -/

@[simp] theorem State.consumeDescriptor_ctx32 : s.consumeDescriptor.ctx32 = s.ctx32 := rfl
@[simp] theorem State.consumeDescriptor_ctx64 : s.consumeDescriptor.ctx64 = s.ctx64 := rfl
@[simp] theorem State.consumeDescriptor_phase : s.consumeDescriptor.phase = s.phase := rfl
@[simp] theorem State.consumeDescriptor_fault : s.consumeDescriptor.fault = s.fault := rfl
@[simp] theorem State.consumeDescriptor_pos : s.consumeDescriptor.pos = s.pos + 16 := rfl
@[simp] theorem State.consumeDescriptor_seq : s.consumeDescriptor.seq = s.seq := rfl
@[simp] theorem State.consumeDescriptor_stream : s.consumeDescriptor.stream = s.stream.drop 16 := rfl
@[simp] theorem State.consumeDescriptor_responses : s.consumeDescriptor.responses = s.responses := rfl
@[simp] theorem State.consumeDescriptor_resetRequest : s.consumeDescriptor.resetRequest = s.resetRequest := rfl

/-! ### `State.respond` -/

@[simp] theorem State.respond_ctx32 (status : BitVec 8) (value : Word64) : (s.respond status value).ctx32 = s.ctx32 := rfl
@[simp] theorem State.respond_ctx64 (status : BitVec 8) (value : Word64) : (s.respond status value).ctx64 = s.ctx64 := rfl
@[simp] theorem State.respond_phase (status : BitVec 8) (value : Word64) : (s.respond status value).phase = s.phase := rfl
@[simp] theorem State.respond_fault (status : BitVec 8) (value : Word64) : (s.respond status value).fault = s.fault := rfl
@[simp] theorem State.respond_pos (status : BitVec 8) (value : Word64) : (s.respond status value).pos = s.pos := rfl
@[simp] theorem State.respond_seq (status : BitVec 8) (value : Word64) : (s.respond status value).seq = s.seq + 1 := rfl
@[simp] theorem State.respond_stream (status : BitVec 8) (value : Word64) : (s.respond status value).stream = s.stream := rfl
@[simp] theorem State.respond_responses (status : BitVec 8) (value : Word64) : (s.respond status value).responses = s.responses ++ [⟨status, value⟩] := rfl
@[simp] theorem State.respond_resetRequest (status : BitVec 8) (value : Word64) : (s.respond status value).resetRequest = s.resetRequest := rfl

/-! ### `State.complete` -/

@[simp] theorem State.complete_ctx32 (value : Word64) : (s.complete value).ctx32 = s.ctx32 := rfl
@[simp] theorem State.complete_ctx64 (value : Word64) : (s.complete value).ctx64 = s.ctx64 := rfl
@[simp] theorem State.complete_phase (value : Word64) : (s.complete value).phase = s.phase := rfl
@[simp] theorem State.complete_fault (value : Word64) : (s.complete value).fault = s.fault := rfl
@[simp] theorem State.complete_pos (value : Word64) : (s.complete value).pos = s.pos := rfl
@[simp] theorem State.complete_seq (value : Word64) : (s.complete value).seq = s.seq + 1 := rfl
@[simp] theorem State.complete_stream (value : Word64) : (s.complete value).stream = s.stream := rfl
@[simp] theorem State.complete_responses (value : Word64) : (s.complete value).responses = s.responses ++ [⟨0x00#8, value⟩] := rfl
@[simp] theorem State.complete_resetRequest (value : Word64) : (s.complete value).resetRequest = s.resetRequest := rfl

/-! ### `State.takeFault` -/

@[simp] theorem State.takeFault_ctx32 (e : Cause) : (s.takeFault e).ctx32 = s.ctx32 := rfl
@[simp] theorem State.takeFault_ctx64 (e : Cause) : (s.takeFault e).ctx64 = s.ctx64 := rfl
@[simp] theorem State.takeFault_phase (e : Cause) : (s.takeFault e).phase = .halted := rfl
@[simp] theorem State.takeFault_fault (e : Cause) : (s.takeFault e).fault = causeCode e := rfl
@[simp] theorem State.takeFault_pos (e : Cause) : (s.takeFault e).pos = s.pos + 16 := rfl
@[simp] theorem State.takeFault_seq (e : Cause) : (s.takeFault e).seq = s.seq + 1 := rfl
@[simp] theorem State.takeFault_stream (e : Cause) : (s.takeFault e).stream = s.stream.drop 16 := rfl
@[simp] theorem State.takeFault_responses (e : Cause) : (s.takeFault e).responses = s.responses ++ [⟨causeCode e, 0#64⟩] := rfl
@[simp] theorem State.takeFault_resetRequest (e : Cause) : (s.takeFault e).resetRequest = s.resetRequest := rfl

/-! ### `State.applyReset` -/

@[simp] theorem State.applyReset_ctx32 : s.applyReset.ctx32 = List.replicate s.ctx32.length (Slot.blank 32) := rfl
@[simp] theorem State.applyReset_ctx64 : s.applyReset.ctx64 = List.replicate s.ctx64.length (Slot.blank 64) := rfl
@[simp] theorem State.applyReset_phase : s.applyReset.phase = .idle := rfl
@[simp] theorem State.applyReset_fault : s.applyReset.fault = 0#8 := rfl
@[simp] theorem State.applyReset_pos : s.applyReset.pos = 0 := rfl
@[simp] theorem State.applyReset_seq : s.applyReset.seq = 0 := rfl
@[simp] theorem State.applyReset_stream : s.applyReset.stream = [] := rfl
@[simp] theorem State.applyReset_responses : s.applyReset.responses = s.responses := rfl
@[simp] theorem State.applyReset_resetRequest : s.applyReset.resetRequest = false := rfl

/-! ### `State.supply` -/

@[simp] theorem State.supply_ctx32 (bytes : Bytes) : (s.supply bytes).ctx32 = s.ctx32 := rfl
@[simp] theorem State.supply_ctx64 (bytes : Bytes) : (s.supply bytes).ctx64 = s.ctx64 := rfl
@[simp] theorem State.supply_phase (bytes : Bytes) : (s.supply bytes).phase = s.phase := rfl
@[simp] theorem State.supply_fault (bytes : Bytes) : (s.supply bytes).fault = s.fault := rfl
@[simp] theorem State.supply_pos (bytes : Bytes) : (s.supply bytes).pos = s.pos := rfl
@[simp] theorem State.supply_seq (bytes : Bytes) : (s.supply bytes).seq = s.seq := rfl
@[simp] theorem State.supply_stream (bytes : Bytes) : (s.supply bytes).stream = s.stream ++ bytes := rfl
@[simp] theorem State.supply_responses (bytes : Bytes) : (s.supply bytes).responses = s.responses := rfl
@[simp] theorem State.supply_resetRequest (bytes : Bytes) : (s.supply bytes).resetRequest = s.resetRequest := rfl

/-! ### `State.assertReset` -/

@[simp] theorem State.assertReset_ctx32 : s.assertReset.ctx32 = s.ctx32 := rfl
@[simp] theorem State.assertReset_ctx64 : s.assertReset.ctx64 = s.ctx64 := rfl
@[simp] theorem State.assertReset_phase : s.assertReset.phase = s.phase := rfl
@[simp] theorem State.assertReset_fault : s.assertReset.fault = s.fault := rfl
@[simp] theorem State.assertReset_pos : s.assertReset.pos = s.pos := rfl
@[simp] theorem State.assertReset_seq : s.assertReset.seq = s.seq := rfl
@[simp] theorem State.assertReset_stream : s.assertReset.stream = s.stream := rfl
@[simp] theorem State.assertReset_responses : s.assertReset.responses = s.responses := rfl
@[simp] theorem State.assertReset_resetRequest : s.assertReset.resetRequest = true := rfl

/-! ### Hash States -/

variable {w : Nat} (st : HashState w)

@[simp] theorem advance_seed (n : Word64) : (advance st n).seed = st.seed := rfl
@[simp] theorem advance_v (n : Word64) : (advance st n).v = st.v := rfl
@[simp] theorem advance_totalLength (n : Word64) : (advance st n).totalLength = st.totalLength + n := rfl
@[simp] theorem advance_buf (n : Word64) : (advance st n).buf = st.buf := rfl

@[simp] theorem feed_seed (E : Engine w) (bytes : Bytes) : (feed E st bytes).seed = st.seed := rfl
@[simp] theorem feed_v (E : Engine w) (bytes : Bytes) : (feed E st bytes).v = (fold E st.v (st.buf ++ bytes)).1 := rfl
@[simp] theorem feed_totalLength (E : Engine w) (bytes : Bytes) : (feed E st bytes).totalLength = st.totalLength := rfl
@[simp] theorem feed_buf (E : Engine w) (bytes : Bytes) : (feed E st bytes).buf = (fold E st.v (st.buf ++ bytes)).2 := rfl

@[simp] theorem absorb_seed (E : Engine w) (bytes : Bytes) : (absorb E st bytes).seed = st.seed := rfl
@[simp] theorem absorb_v (E : Engine w) (bytes : Bytes) : (absorb E st bytes).v = (fold E st.v (st.buf ++ bytes)).1 := rfl
@[simp] theorem absorb_totalLength (E : Engine w) (bytes : Bytes) : (absorb E st bytes).totalLength = st.totalLength + BitVec.ofNat 64 bytes.length := rfl
@[simp] theorem absorb_buf (E : Engine w) (bytes : Bytes) : (absorb E st bytes).buf = (fold E st.v (st.buf ++ bytes)).2 := rfl

@[simp] theorem initState_seed (E : Engine w) (seed : BitVec w) : (initState E seed).seed = seed := rfl
@[simp] theorem initState_v (E : Engine w) (seed : BitVec w) : (initState E seed).v = initLanes E seed := rfl
@[simp] theorem initState_totalLength (E : Engine w) (seed : BitVec w) : (initState E seed).totalLength = 0#64 := rfl
@[simp] theorem initState_buf (E : Engine w) (seed : BitVec w) : (initState E seed).buf = [] := rfl

end Sys2Proof.Machine
end

