-- ==== Sys2Proof/Laws/Ops.lean ====
section
/-! SUPPORT. For each shared operation of the machine, what it can do, said once. -/

namespace Sys2Proof.Machine

/-- Raising a fault is a next state: the fault taken. -/
@[simp] theorem raise_eq (e : Cause) (s : State) : raise e s = .next (s.takeFault e) := rfl

/-- A fault code is never 0, the code of OK. -/
@[simp] theorem causeCode_ne_zero (e : Cause) : causeCode e ≠ 0#8 := by cases e <;> decide

/-- The seed operand of XXH32 is there exactly below `2^32`, and is then the number itself. -/
theorem seedOperand32_eq (imm : Word64) :
    seedOperand32 imm = if imm.toNat < 2 ^ 32 then some (imm.setWidth 32) else none := by
  have hi : (imm.extractLsb' 32 32 = 0#32) ↔ imm.toNat < 2 ^ 32 := by
    have hlt := imm.isLt
    rw [← BitVec.toNat_inj, BitVec.extractLsb'_toNat, Nat.shiftRight_eq_div_pow, BitVec.toNat_ofNat]
    omega
  have lo : imm.extractLsb' 0 32 = imm.setWidth 32 := by
    apply BitVec.eq_of_toNat_eq
    simp [BitVec.extractLsb'_toNat]
  simp only [seedOperand32, hi, lo]

/-- The overflow test is the exact sum of 60_exceptions.md R195. -/
@[simp] theorem lengthOverflows_iff (total : Word64) (len : BitVec 32) :
    lengthOverflows total len = true ↔ 2 ^ 64 ≤ total.toNat + len.toNat := by
  simp [lengthOverflows]

/-- The path choice is the comparison of 42_finalizer.md R140. -/
@[simp] theorem large_iff {w : Nat} (E : Engine w) (st : HashState w) :
    large E st = true ↔ E.block ≤ st.totalLength.toNat := by
  simp [large]

section Payload

variable (s : State) (job : Job) (remaining : Nat)

/-- Nothing is pumped in IDLE. -/
theorem pump_idle (h : s.phase = .idle) : s.pump = s := by simp [State.pump, h]

/-- With all remaining payload bytes available the command completes. -/
theorem pump_enough (h : s.phase = .payload job remaining) (hlen : remaining ≤ s.stream.length) :
    s.pump =
      ({ ((s.consume remaining).feedJob job (s.stream.take remaining)).1 with phase := .idle } : State).complete
        (jobValue ((s.consume remaining).feedJob job (s.stream.take remaining)).2) := by
  simp [State.pump, h, List.length_take, Nat.min_eq_left hlen]

/-- With too few payload bytes available all of them are consumed and the command goes on waiting. -/
theorem pump_short (h : s.phase = .payload job remaining) (hlen : s.stream.length < remaining) :
    s.pump =
      { ((s.consume s.stream.length).feedJob job s.stream).1 with
        phase := .payload ((s.consume s.stream.length).feedJob job s.stream).2 (remaining - s.stream.length) } := by
  have htake : s.stream.take remaining = s.stream := List.take_of_length_le (Nat.le_of_lt hlen)
  simp [State.pump, h, htake, Nat.ne_of_lt hlen]

/-- Feeding a job touches the slot it names and nothing else. -/
theorem feedJob_cases (chunk : Bytes) :
    (∃ c, job = .upd32 c ∧
      s.feedJob job chunk = (s.updateSlot32 c fun st => feed xxh32 st chunk, .upd32 c)) ∨
    (∃ c, job = .upd64 c ∧
      s.feedJob job chunk = (s.updateSlot64 c fun st => feed xxh64 st chunk, .upd64 c)) ∨
    (∃ work, job = .hash32 work ∧ s.feedJob job chunk = (s, .hash32 (feed xxh32 work chunk))) ∨
    (∃ work, job = .hash64 work ∧ s.feedJob job chunk = (s, .hash64 (feed xxh64 work chunk))) := by
  cases job with
  | upd32 c => exact .inl ⟨c, rfl, rfl⟩
  | upd64 c => exact .inr (.inl ⟨c, rfl, rfl⟩)
  | hash32 work => exact .inr (.inr (.inl ⟨work, rfl, rfl⟩))
  | hash64 work => exact .inr (.inr (.inr ⟨work, rfl, rfl⟩))

end Payload

/-- What the fetch finds. -/
theorem fetch_cases (s : State) :
    (s.stream.length < 16 ∧ s.fetch = .waiting) ∨
    (16 ≤ s.stream.length ∧ ((∃ e, decodeWord (descriptorOf s.stream) = .error e ∧
      s.fetch = (if e = .incomplete then .waiting else .illegal)) ∨
    ∃ i, decodeWord (descriptorOf s.stream) = .ok i ∧ s.fetch = .command i)) := by
  unfold State.fetch decode
  by_cases h : s.stream.length < 16
  · exact .inl ⟨h, by simp [h]⟩
  · refine .inr ⟨Nat.le_of_not_lt h, ?_⟩
    cases hd : decodeWord (descriptorOf s.stream) with
    | error e => exact .inl ⟨e, rfl, by cases e <;> simp [h]⟩
    | ok i => exact .inr ⟨i, rfl, by simp [h]⟩

/-- What a step can do, phase by phase. -/
theorem step_cases (s t : State) (h : step s = .next t) :
    (s.resetRequest = true ∧ t = s.applyReset) ∨
    (s.resetRequest = false ∧
      ((∃ job remaining, s.phase = .payload job remaining ∧
        ((s.stream = [] ∧ t = s) ∨ (s.stream ≠ [] ∧ t = s.pump))) ∨
      (s.phase = .idle ∧
        ((s.fetch = .waiting ∧ t = s) ∨ (s.fetch = .illegal ∧ t = s.takeFault .illegalCommand) ∨
          ∃ i, s.fetch = .command i ∧ exec i s = .next t)))) := by
  unfold step sequencerStep at h
  cases hr : s.resetRequest with
  | true => simp only [hr, if_true, Host.Outcome.next.injEq] at h; exact .inl ⟨rfl, h.symm⟩
  | false =>
    simp only [hr, Bool.false_eq_true, if_false] at h
    refine .inr ⟨rfl, ?_⟩
    cases hp : s.phase with
    | halted => simp [hp] at h
    | payload job remaining =>
      refine .inl ⟨job, remaining, rfl, ?_⟩
      by_cases hs : s.stream = []
      · simp only [hp, hs, if_true, Host.Outcome.next.injEq] at h; exact .inl ⟨hs, h.symm⟩
      · simp only [hp, hs, if_false, Host.Outcome.next.injEq] at h; exact .inr ⟨hs, h.symm⟩
    | idle =>
      refine .inr ⟨rfl, ?_⟩
      cases hf : s.fetch with
      | waiting => simp only [hp, hf, Host.Outcome.next.injEq] at h; exact .inl ⟨rfl, h.symm⟩
      | illegal => simp only [hp, hf, raise_eq, Host.Outcome.next.injEq] at h; exact .inr (.inl ⟨rfl, h.symm⟩)
      | command i => simp only [hp, hf] at h; exact .inr (.inr ⟨i, rfl, h⟩)

end Sys2Proof.Machine
end

