-- ==== Sys2Proof/Laws/Exec.lean ====
section
/-! SUPPORT. What executing a command can do, said once, and what consuming a payload leaves alone. -/

namespace Sys2Proof.Machine

/-- The ways a command ends in a next state. -/
inductive Executed (s : State) : Instr → State → Prop where
  /-- it took one of its faults -/
  | fault (i : Instr) (e : Cause) (he : e ∈ raisable i) : Executed s i (s.takeFault e)
  /-- it constructed or copied onto an XXH32 slot -/
  | wrote32 (i : Instr) (c : Nat) (st : HashState 32) (hc : c < s.ctx32.length)
      (hi : (∃ imm, i = .init32 c imm) ∨ ∃ src, i = .cpy32 c src ∧ s.ctx32[src]? = some ⟨true, st⟩) :
      Executed s i ((s.consumeDescriptor.setSlot32 c ⟨true, st⟩).complete 0#64)
  /-- it constructed or copied onto an XXH64 slot -/
  | wrote64 (i : Instr) (c : Nat) (st : HashState 64) (hc : c < s.ctx64.length)
      (hi : (∃ imm, i = .init64 c imm) ∨ ∃ src, i = .cpy64 c src ∧ s.ctx64[src]? = some ⟨true, st⟩) :
      Executed s i ((s.consumeDescriptor.setSlot64 c ⟨true, st⟩).complete 0#64)
  /-- it only responded -/
  | responded (i : Instr) (value : Word64) (h32 : writes32 i = none) (h64 : writes64 i = none)
      (hlen : payloadLength i = 0) : Executed s i (s.consumeDescriptor.complete value)
  /-- UPD32 was accepted -/
  | upd32 (c : Nat) (len : BitVec 32) (st : HashState 32) (hs : s.ctx32[c]? = some ⟨true, st⟩)
      (ho : st.totalLength.toNat + len.toNat < 2 ^ 64) :
      Executed s (.upd32 c len) ((s.consumeDescriptor.updateSlot32 c fun st => advance st (len.setWidth 64)).startPayload
        (.upd32 c) len.toNat)
  /-- UPD64 was accepted -/
  | upd64 (c : Nat) (len : BitVec 32) (st : HashState 64) (hs : s.ctx64[c]? = some ⟨true, st⟩)
      (ho : st.totalLength.toNat + len.toNat < 2 ^ 64) :
      Executed s (.upd64 c len) ((s.consumeDescriptor.updateSlot64 c fun st => advance st (len.setWidth 64)).startPayload
        (.upd64 c) len.toNat)
  /-- HASH32 was accepted -/
  | hash32 (len : BitVec 32) (imm : Word64) (seed : Word32) (hs : seedOperand32 imm = some seed) :
      Executed s (.hash32 len imm) (s.consumeDescriptor.startPayload
        (.hash32 (advance (initState xxh32 seed) (len.setWidth 64))) len.toNat)
  /-- HASH64 was accepted -/
  | hash64 (len : BitVec 32) (imm : Word64) :
      Executed s (.hash64 len imm) (s.consumeDescriptor.startPayload
        (.hash64 (advance (initState xxh64 imm) (len.setWidth 64))) len.toNat)

/-- Whatever `exec` answers as a next state is one of these. -/
theorem exec_executed (i : Instr) (s t : State) (h : exec i s = .next t) : Executed s i t := by
  cases i with
  | init32 c imm =>
    simp only [exec, execInit32] at h
    split at h
    · cases h; exact .fault _ _ (by simp [raisable])
    · split at h
      · cases h; exact .fault _ _ (by simp [raisable])
      · cases h; exact .wrote32 _ c _ (by omega) (.inl ⟨imm, rfl⟩)
  | init64 c imm =>
    simp only [exec, execInit64] at h
    split at h
    · cases h; exact .fault _ _ (by simp [raisable])
    · cases h; exact .wrote64 _ c _ (by omega) (.inl ⟨imm, rfl⟩)
  | upd32 c len =>
    simp only [exec, execUpd32] at h
    split at h
    · cases h; exact .fault _ _ (by simp [raisable])
    · split at h
      · cases h; exact .fault _ _ (by simp [raisable])
      · split at h
        · cases h; exact .fault _ _ (by simp [raisable])
        · rename_i slot hs hv ho
          obtain ⟨v, st⟩ := slot
          obtain rfl : v = true := by simpa using hv
          cases h
          exact .upd32 c len st hs (by simpa using ho)
  | upd64 c len =>
    simp only [exec, execUpd64] at h
    split at h
    · cases h; exact .fault _ _ (by simp [raisable])
    · split at h
      · cases h; exact .fault _ _ (by simp [raisable])
      · split at h
        · cases h; exact .fault _ _ (by simp [raisable])
        · rename_i slot hs hv ho
          obtain ⟨v, st⟩ := slot
          obtain rfl : v = true := by simpa using hv
          cases h
          exact .upd64 c len st hs (by simpa using ho)
  | dig32 c =>
    simp only [exec, execDig32] at h
    split at h
    · cases h; exact .fault _ _ (by simp [raisable])
    · split at h
      · cases h; exact .fault _ _ (by simp [raisable])
      · cases h; exact .responded _ _ rfl rfl rfl
  | dig64 c =>
    simp only [exec, execDig64] at h
    split at h
    · cases h; exact .fault _ _ (by simp [raisable])
    · split at h
      · cases h; exact .fault _ _ (by simp [raisable])
      · cases h; exact .responded _ _ rfl rfl rfl
  | cpy32 d c =>
    simp only [exec, execCpy32] at h
    split at h
    · cases h; exact .fault _ _ (by simp [raisable])
    · split at h
      · cases h; exact .fault _ _ (by simp [raisable])
      · split at h
        · cases h; exact .fault _ _ (by simp [raisable])
        · rename_i slot hs hv
          obtain ⟨v, st⟩ := slot
          obtain rfl : v = true := by simpa using hv
          cases h
          exact .wrote32 _ d st (by omega) (.inr ⟨c, rfl, hs⟩)
  | cpy64 d c =>
    simp only [exec, execCpy64] at h
    split at h
    · cases h; exact .fault _ _ (by simp [raisable])
    · split at h
      · cases h; exact .fault _ _ (by simp [raisable])
      · split at h
        · cases h; exact .fault _ _ (by simp [raisable])
        · rename_i slot hs hv
          obtain ⟨v, st⟩ := slot
          obtain rfl : v = true := by simpa using hv
          cases h
          exact .wrote64 _ d st (by omega) (.inr ⟨c, rfl, hs⟩)
  | hash32 len imm =>
    simp only [exec, execHash32] at h
    split at h
    · cases h; exact .fault _ _ (by simp [raisable])
    · rename_i seed hs
      cases h; exact .hash32 len imm seed hs
  | hash64 len imm => simp only [exec, execHash64] at h; cases h; exact .hash64 len imm
  | info32 => simp only [exec, execInfo32] at h; cases h; exact .responded _ _ rfl rfl rfl
  | info64 => simp only [exec, execInfo64] at h; cases h; exact .responded _ _ rfl rfl rfl

/-- No command ends in a fault or a refusal of the model: each answers a next state. -/
theorem exec_next (i : Instr) (s : State) : ∃ t, exec i s = .next t := by
  cases i <;>
    simp only [exec, execInit32, execInit64, execUpd32, execUpd64, execDig32, execDig64, execCpy32, execCpy64,
      execHash32, execHash64, execInfo32, execInfo64, raise_eq] <;>
    repeat' split
  all_goals exact ⟨_, rfl⟩

/-- What consuming a payload does to everything but the slot of its job: it moves `n` bytes off the stream, and responds
exactly when it returns to IDLE. -/
theorem pump_frame (s : State) (job : Job) (remaining : Nat) (h : s.phase = .payload job remaining) :
    (∀ c, job ≠ .upd32 c → s.pump.ctx32[c]? = s.ctx32[c]?) ∧ (∀ c, job ≠ .upd64 c → s.pump.ctx64[c]? = s.ctx64[c]?) ∧
    s.pump.ctx32.length = s.ctx32.length ∧ s.pump.ctx64.length = s.ctx64.length ∧ s.pump.fault = s.fault ∧
    s.pump.resetRequest = s.resetRequest ∧
    s.pump.stream = s.stream.drop (min remaining s.stream.length) ∧
    s.pump.pos = s.pos + min remaining s.stream.length ∧
    ((s.pump.phase = .idle ∧ s.pump.seq = s.seq + 1 ∧ ∃ value, s.pump.responses = s.responses ++ [⟨0x00#8, value⟩]) ∨
      (s.stream.length < remaining ∧ (∃ job', s.pump.phase = .payload job' (remaining - s.stream.length)) ∧
        s.pump.seq = s.seq ∧ s.pump.responses = s.responses)) := by
  by_cases hlen : remaining ≤ s.stream.length
  · rw [pump_enough s job remaining h hlen, Nat.min_eq_left hlen]
    cases job with
    | upd32 c =>
      refine ⟨fun d hd => ?_, fun _ _ => rfl, ?_, rfl, rfl, rfl, rfl, rfl, .inl ⟨rfl, rfl, _, rfl⟩⟩
      · have hne : c ≠ d := fun e => hd (by rw [e])
        simp [State.feedJob, hne]
      · simp [State.feedJob]
    | upd64 c =>
      refine ⟨fun _ _ => rfl, fun d hd => ?_, rfl, ?_, rfl, rfl, rfl, rfl, .inl ⟨rfl, rfl, _, rfl⟩⟩
      · have hne : c ≠ d := fun e => hd (by rw [e])
        simp [State.feedJob, hne]
      · simp [State.feedJob]
    | hash32 work =>
      exact ⟨fun _ _ => rfl, fun _ _ => rfl, rfl, rfl, rfl, rfl, rfl, rfl, .inl ⟨rfl, rfl, _, rfl⟩⟩
    | hash64 work =>
      exact ⟨fun _ _ => rfl, fun _ _ => rfl, rfl, rfl, rfl, rfl, rfl, rfl, .inl ⟨rfl, rfl, _, rfl⟩⟩
  · have hlt : s.stream.length < remaining := Nat.lt_of_not_le hlen
    rw [pump_short s job remaining h hlt, Nat.min_eq_right (Nat.le_of_lt hlt)]
    cases job with
    | upd32 c =>
      refine ⟨fun d hd => ?_, fun _ _ => rfl, ?_, rfl, rfl, rfl, rfl, rfl, .inr ⟨hlt, ⟨_, rfl⟩, rfl, rfl⟩⟩
      · have hne : c ≠ d := fun e => hd (by rw [e])
        simp [State.feedJob, hne]
      · simp [State.feedJob]
    | upd64 c =>
      refine ⟨fun _ _ => rfl, fun d hd => ?_, rfl, ?_, rfl, rfl, rfl, rfl, .inr ⟨hlt, ⟨_, rfl⟩, rfl, rfl⟩⟩
      · have hne : c ≠ d := fun e => hd (by rw [e])
        simp [State.feedJob, hne]
      · simp [State.feedJob]
    | hash32 work =>
      exact ⟨fun _ _ => rfl, fun _ _ => rfl, rfl, rfl, rfl, rfl, rfl, rfl, .inr ⟨hlt, ⟨_, rfl⟩, rfl, rfl⟩⟩
    | hash64 work =>
      exact ⟨fun _ _ => rfl, fun _ _ => rfl, rfl, rfl, rfl, rfl, rfl, rfl, .inr ⟨hlt, ⟨_, rfl⟩, rfl, rfl⟩⟩

end Sys2Proof.Machine
end

