-- ==== Sys2Proof/Laws/PerInstr.lean ====
section
/-! SUPPORT. Statements made of every command as syntax, one lemma per constructor. -/

namespace Sys2Proof.Laws.DescriptorFields

open Sys2Proof

/-- The number of the operation code and the engine bit of each command (30_encoding.md R73). -/
def opAndEngine : Instr → BitVec 8 × BitVec 1
  | .init32 _ _ => (0x01#8, 0#1)
  | .init64 _ _ => (0x01#8, 1#1)
  | .upd32 _ _ => (0x02#8, 0#1)
  | .upd64 _ _ => (0x02#8, 1#1)
  | .dig32 _ => (0x03#8, 0#1)
  | .dig64 _ => (0x03#8, 1#1)
  | .cpy32 _ _ => (0x04#8, 0#1)
  | .cpy64 _ _ => (0x04#8, 1#1)
  | .hash32 _ _ => (0x05#8, 0#1)
  | .hash64 _ _ => (0x05#8, 1#1)
  | .info32 => (0x06#8, 0#1)
  | .info64 => (0x06#8, 1#1)

/-- The fields of packed operands are the operands. -/
theorem packFields_fields (op : BitVec 8) (w : BitVec 1) (ctx src : Nat) (len : BitVec 32) (imm : Word64) :
    fieldOp (packFields op w ctx src len imm) = op ∧ fieldW (packFields op w ctx src len imm) = w ∧
    fieldRsv (packFields op w ctx src len imm) = 0#7 ∧
    fieldCtx (packFields op w ctx src len imm) = BitVec.ofNat 8 ctx ∧
    fieldSrc (packFields op w ctx src len imm) = BitVec.ofNat 8 src ∧
    fieldLen (packFields op w ctx src len imm) = len ∧ fieldImm (packFields op w ctx src len imm) = imm := by
  refine ⟨?_, ?_, ?_, ?_, ?_, ?_, ?_⟩ <;>
    simp only [fieldOp, fieldW, fieldRsv, fieldCtx, fieldSrc, fieldLen, fieldImm, packFields] <;>
    · apply BitVec.eq_of_getLsbD_eq
      intro i hi
      simp only [BitVec.getLsbD_extractLsb', hi, decide_true, Bool.true_and, BitVec.getLsbD_append]
      repeat' split
      all_goals first
        | omega
        | (congr 1 <;> omega)

/-- The encoding of a command carries its operation code and engine bit, `RSV = 0`, in 16 bytes. -/
def Statement (i : Instr) : Prop :=
  (encode i).length = 16 ∧ fieldOp (encodeWord i) = (opAndEngine i).1 ∧ fieldW (encodeWord i) = (opAndEngine i).2 ∧
    fieldRsv (encodeWord i) = 0#7

theorem init32 (ctx : Nat) (imm : Word64) : Statement (.init32 ctx imm) :=
  have h := packFields_fields opInit 0#1 ctx 0 0#32 imm
  ⟨Machine.encode_length _, h.1, h.2.1, h.2.2.1⟩

theorem init64 (ctx : Nat) (imm : Word64) : Statement (.init64 ctx imm) :=
  have h := packFields_fields opInit 1#1 ctx 0 0#32 imm
  ⟨Machine.encode_length _, h.1, h.2.1, h.2.2.1⟩

theorem upd32 (ctx : Nat) (len : BitVec 32) : Statement (.upd32 ctx len) :=
  have h := packFields_fields opUpd 0#1 ctx 0 len 0#64
  ⟨Machine.encode_length _, h.1, h.2.1, h.2.2.1⟩

theorem upd64 (ctx : Nat) (len : BitVec 32) : Statement (.upd64 ctx len) :=
  have h := packFields_fields opUpd 1#1 ctx 0 len 0#64
  ⟨Machine.encode_length _, h.1, h.2.1, h.2.2.1⟩

theorem dig32 (ctx : Nat) : Statement (.dig32 ctx) :=
  have h := packFields_fields opDig 0#1 ctx 0 0#32 0#64
  ⟨Machine.encode_length _, h.1, h.2.1, h.2.2.1⟩

theorem dig64 (ctx : Nat) : Statement (.dig64 ctx) :=
  have h := packFields_fields opDig 1#1 ctx 0 0#32 0#64
  ⟨Machine.encode_length _, h.1, h.2.1, h.2.2.1⟩

theorem cpy32 (ctx src : Nat) : Statement (.cpy32 ctx src) :=
  have h := packFields_fields opCpy 0#1 ctx src 0#32 0#64
  ⟨Machine.encode_length _, h.1, h.2.1, h.2.2.1⟩

theorem cpy64 (ctx src : Nat) : Statement (.cpy64 ctx src) :=
  have h := packFields_fields opCpy 1#1 ctx src 0#32 0#64
  ⟨Machine.encode_length _, h.1, h.2.1, h.2.2.1⟩

theorem hash32 (len : BitVec 32) (imm : Word64) : Statement (.hash32 len imm) :=
  have h := packFields_fields opHash 0#1 0 0 len imm
  ⟨Machine.encode_length _, h.1, h.2.1, h.2.2.1⟩

theorem hash64 (len : BitVec 32) (imm : Word64) : Statement (.hash64 len imm) :=
  have h := packFields_fields opHash 1#1 0 0 len imm
  ⟨Machine.encode_length _, h.1, h.2.1, h.2.2.1⟩

theorem info32 : Statement .info32 :=
  have h := packFields_fields opInfo 0#1 0 0 0#32 0#64
  ⟨Machine.encode_length _, h.1, h.2.1, h.2.2.1⟩

theorem info64 : Statement .info64 :=
  have h := packFields_fields opInfo 1#1 0 0 0#32 0#64
  ⟨Machine.encode_length _, h.1, h.2.1, h.2.2.1⟩

end Sys2Proof.Laws.DescriptorFields
end

