-- ==== Sys2Proof/Tests/Slice0.lean ====
section
/-! SUPPORT. The model's own tests. Expected values are those 95_test_vectors.md gives, the source's worked examples S1 to S6
and the spec's own evaluations of its rules, or words written out from 30_encoding.md R71 and R73. -/

namespace Sys2Proof.Tests

open Sys2Proof Sys2Proof.Machine Sys2Proof.Claims

/-! ### Helpers -/

/-- A message of the table of 95_test_vectors.md section 7: byte `i` has value `i mod 256`. -/
def counting (n : Nat) : Bytes := (List.range n).map (BitVec.ofNat 8)

/-- The machine after `INIT32 0, 0` and `INIT64 0, 0` with `NCTX = 2`; slot 1 of each engine was never constructed. -/
def ready : State :=
  { State.reset with
    ctx32 := [⟨true, initState xxh32 0#32⟩, Slot.blank 32]
    ctx64 := [⟨true, initState xxh64 0#64⟩, Slot.blank 64] }

/-- XXH32 slot 0 of 95_test_vectors.md section 9, 16 bytes short of the counter's end; XXH64 slot 0 likewise. -/
def nearlyFull : State :=
  { State.reset with
    ctx32 := [⟨true, ⟨0#32, ⟨0#32, 0#32, 0#32, 0#32⟩, 0xFFFFFFFFFFFFFFF0#64, []⟩⟩, Slot.blank 32]
    ctx64 := [⟨true, ⟨0#64, ⟨0#64, 0#64, 0#64, 0#64⟩, 0xFFFFFFFFFFFFFFF0#64, []⟩⟩, Slot.blank 64] }

/-- What one step makes: the phase, `FAULT` and the last response. -/
def outcome (s : State) : Option (Phase × BitVec 8 × Option Response) :=
  match step s with
  | .next t => some (t.phase, t.fault, t.responses.getLast?)
  | .fault _ => none
  | .refused _ => none

/-- What one step makes of the slots. -/
def slotsAfter (s : State) : Option (List (Slot 32) × List (Slot 64)) :=
  match step s with
  | .next t => some (t.ctx32, t.ctx64)
  | .fault _ => none
  | .refused _ => none

/-- The outcome of taking a fault. -/
def halts (code : BitVec 8) : Option (Phase × BitVec 8 × Option Response) := some (.halted, code, some ⟨code, 0#64⟩)

/-- The outcome of a command that completed. -/
def completes (value : Word64) : Option (Phase × BitVec 8 × Option Response) := some (.idle, 0x00#8, some ⟨0x00#8, value⟩)

/-! ### Well-formedness: an index that does not fit its field is refused, in every constructor that has one (R79) -/

theorem test_wellFormed_index_of_init : ¬ (Instr.init32 256 0#64).WellFormed ∧ ¬ (Instr.init64 256 0#64).WellFormed ∧
    (Instr.init32 255 0#64).WellFormed ∧ (Instr.init64 255 0#64).WellFormed := by decide

theorem test_wellFormed_index_of_upd : ¬ (Instr.upd32 256 0#32).WellFormed ∧ ¬ (Instr.upd64 256 0#32).WellFormed ∧
    (Instr.upd32 255 0#32).WellFormed ∧ (Instr.upd64 255 0#32).WellFormed := by decide

theorem test_wellFormed_index_of_dig : ¬ (Instr.dig32 256).WellFormed ∧ ¬ (Instr.dig64 256).WellFormed ∧
    (Instr.dig32 255).WellFormed ∧ (Instr.dig64 255).WellFormed := by decide

theorem test_wellFormed_indices_of_cpy : ¬ (Instr.cpy32 256 0).WellFormed ∧ ¬ (Instr.cpy32 0 256).WellFormed ∧
    ¬ (Instr.cpy64 256 0).WellFormed ∧ ¬ (Instr.cpy64 0 256).WellFormed ∧
    (Instr.cpy32 255 255).WellFormed ∧ (Instr.cpy64 255 255).WellFormed := by decide

/-! ### Decoding: one descriptor per constructor, its sixteen bytes written out from R71 and R73 -/

/-- `INIT32 2, 0x11223344`: OP 01, W 0, CTX 02, IMM little-endian in B8 to B15. -/
theorem test_decode_init32 : decode [0x01, 0x00, 0x02, 0x00, 0, 0, 0, 0, 0x44, 0x33, 0x22, 0x11, 0, 0, 0, 0] =
    .ok (.init32 2 0x11223344#64, []) := by decide

/-- `INIT64 255, 0x8877665544332211` -/
theorem test_decode_init64 :
    decode [0x01, 0x01, 0xFF, 0x00, 0, 0, 0, 0, 0x11, 0x22, 0x33, 0x44, 0x55, 0x66, 0x77, 0x88] =
      .ok (.init64 255 0x8877665544332211#64, []) := by decide

/-- `UPD32 0, "abc"`, the example of R90; the payload is left in the stream. -/
theorem test_decode_upd32 :
    decode [0x02, 0x00, 0x00, 0x00, 0x03, 0, 0, 0, 0, 0, 0, 0, 0, 0, 0, 0, 0x61, 0x62, 0x63] =
      .ok (.upd32 0 3#32, [0x61, 0x62, 0x63]) := by decide

/-- `UPD64` of slot 7 with `LEN = 0xDDCCBBAA` in B4 to B7 -/
theorem test_decode_upd64 : decode [0x02, 0x01, 0x07, 0x00, 0xAA, 0xBB, 0xCC, 0xDD, 0, 0, 0, 0, 0, 0, 0, 0] =
    .ok (.upd64 7 0xDDCCBBAA#32, []) := by decide

/-- `DIG32 1` -/
theorem test_decode_dig32 : decode [0x03, 0x00, 0x01, 0x00, 0, 0, 0, 0, 0, 0, 0, 0, 0, 0, 0, 0] =
    .ok (.dig32 1, []) := by decide

/-- `DIG64 128` -/
theorem test_decode_dig64 : decode [0x03, 0x01, 0x80, 0x00, 0, 0, 0, 0, 0, 0, 0, 0, 0, 0, 0, 0] =
    .ok (.dig64 128, []) := by decide

/-- `CPY32 5, 9`: the destination in B2, the source in B3 -/
theorem test_decode_cpy32 : decode [0x04, 0x00, 0x05, 0x09, 0, 0, 0, 0, 0, 0, 0, 0, 0, 0, 0, 0] =
    .ok (.cpy32 5 9, []) := by decide

/-- `CPY64 9, 5` -/
theorem test_decode_cpy64 : decode [0x04, 0x01, 0x09, 0x05, 0, 0, 0, 0, 0, 0, 0, 0, 0, 0, 0, 0] =
    .ok (.cpy64 9 5, []) := by decide

/-- `HASH32 1, <4 bytes>` -/
theorem test_decode_hash32 : decode [0x05, 0x00, 0x00, 0x00, 0x04, 0, 0, 0, 0x01, 0, 0, 0, 0, 0, 0, 0] =
    .ok (.hash32 4#32 1#64, []) := by decide

/-- `HASH64` with every byte of `LEN` and of `IMM` different -/
theorem test_decode_hash64 :
    decode [0x05, 0x01, 0x00, 0x00, 0x01, 0x02, 0x03, 0x04, 0x05, 0x06, 0x07, 0x08, 0x09, 0x0A, 0x0B, 0x0C] =
      .ok (.hash64 0x04030201#32 0x0C0B0A0908070605#64, []) := by decide

/-- `INFO32` -/
theorem test_decode_info32 : decode [0x06, 0x00, 0x00, 0x00, 0, 0, 0, 0, 0, 0, 0, 0, 0, 0, 0, 0] =
    .ok (.info32, []) := by decide

/-- `INFO64` -/
theorem test_decode_info64 : decode [0x06, 0x01, 0x00, 0x00, 0, 0, 0, 0, 0, 0, 0, 0, 0, 0, 0, 0] =
    .ok (.info64, []) := by decide

/-- Encoding writes the same bytes (95_test_vectors.md section 4 and R90). -/
theorem test_encode_writes_the_bytes :
    encode (.init64 0 0x9E3779B185EBCA87#64) =
      [0x01, 0x01, 0, 0, 0, 0, 0, 0, 0x87, 0xCA, 0xEB, 0x85, 0xB1, 0x79, 0x37, 0x9E] ∧
    encode (.upd32 0 3#32) = [0x02, 0x00, 0, 0, 0x03, 0, 0, 0, 0, 0, 0, 0, 0, 0, 0, 0] ∧
    encode (.cpy64 9 5) = [0x04, 0x01, 0x09, 0x05, 0, 0, 0, 0, 0, 0, 0, 0, 0, 0, 0, 0] := by decide

/-- Reserved operations and reserved bits are refused by name, each beside the last accepted value (R80). -/
theorem test_decode_refuses_reserved :
    decode (List.replicate 16 0x00) = .error .reservedOp ∧
    decode (0x07 :: List.replicate 15 0x00) = .error .reservedOp ∧
    decode (0xFF :: List.replicate 15 0x00) = .error .reservedOp ∧
    decode (0x01 :: 0x02 :: List.replicate 14 0x00) = .error .reservedBits ∧
    decode (0x01 :: 0x80 :: List.replicate 14 0x00) = .error .reservedBits ∧
    decode (List.replicate 15 0x00) = .error .incomplete := by decide

/-- A must-be-zero field that is not zero is refused (95_test_vectors.md section 9). -/
theorem test_decode_refuses_nonzero_fields :
    decode [0x01, 0, 0, 0x01, 0, 0, 0, 0, 0, 0, 0, 0, 0, 0, 0, 0] = .error .nonZeroField ∧
    decode [0x01, 0, 0, 0, 0x01, 0, 0, 0, 0, 0, 0, 0, 0, 0, 0, 0] = .error .nonZeroField ∧
    decode [0x02, 0, 0, 0, 0, 0, 0, 0, 0x01, 0, 0, 0, 0, 0, 0, 0] = .error .nonZeroField ∧
    decode [0x03, 0, 0, 0, 0x01, 0, 0, 0, 0, 0, 0, 0, 0, 0, 0, 0] = .error .nonZeroField ∧
    decode [0x04, 0, 0x01, 0, 0, 0, 0, 0, 0x01, 0, 0, 0, 0, 0, 0, 0] = .error .nonZeroField ∧
    decode [0x05, 0, 0x01, 0, 0, 0, 0, 0, 0, 0, 0, 0, 0, 0, 0, 0] = .error .nonZeroField ∧
    decode [0x06, 0x01, 0, 0, 0, 0, 0, 0, 0x01, 0, 0, 0, 0, 0, 0, 0] = .error .nonZeroField := by decide

/-- The opcode table's bit numbering: bit 0 is the least significant bit of `B0`, bits above `nbits` are 0. -/
theorem test_decodeTableWord :
    decodeTableWord 128 0x00000000000000000000000000000105 = some (.hash64 0#32 0#64) ∧
    decodeTableWord 128 0x000000000000000100000000000A0001 = some (.init32 10 1#64) ∧
    decodeTableWord 32 0x03020004 = some (.cpy32 2 3) ∧
    decodeTableWord 128 0 = none := by decide

/-- `withFetchWord` runs exactly the row's command: HASH64 of a payload of two zero bytes, seed 0. -/
theorem test_withFetchWord_runs_the_row :
    State.reset.withFetchWord 128 0x00000000000000000000000000000006 = State.reset.supply (encode .info32) ∧
    outcome (State.reset.withFetchWord 128 0x00000000000000000000000000000106) = completes 0x5858483634002008#64 ∧
    outcome (State.reset.withFetchWord 128 0x00000000000000000000000000000105) = completes 0xEF46DB3751D8E999#64 := by decide

/-! ### Arithmetic (95_test_vectors.md sections 2, 3 and 6) -/

theorem test_rotl :
    rotl 0x85EBCA77#32 13 = 0x794EF0BD#32 ∧ rotl 0x80000000#32 1 = 0x00000001#32 ∧ rotl 0x00000001#32 31 = 0x80000000#32 ∧
    rotl 0xC2B2AE3D27D4EB4F#64 31 = 0x93EA75A7E159571E#64 ∧ rotl 0x0123456789ABCDEF#64 27 = 0x3C4D5E6F78091A2B#64 := by decide

theorem test_round :
    round xxh32 0x12345678#32 0x9ABCDEF0#32 = 0x940B3397#32 ∧ round xxh32 0x00000001#32 0x00000000#32 = 0xEF362000#32 ∧
    round xxh64 0#64 0x6867666564636261#64 = 0xD5829FA70A0FCC74#64 ∧
    round xxh64 0xFFFFFFFFFFFFFFFF#64 0xFFFFFFFFFFFFFFFF#64 = 0xE2BA51F296AF98A7#64 := by decide

theorem test_mix_reads_little_endian :
    mix xxh32 (initLanes xxh32 0#32) (counting 16) = ⟨0xF817BCCB#32, 0x0222719B#32, 0xD4B0C0A4#32, 0xDEBB7574#32⟩ ∧
    mix xxh64 (initLanes xxh64 0#64) (counting 32) =
      ⟨0xF4B53B57406B5E99#64, 0xC3D34B511FC32561#64, 0xCB26C007C8A1553F#64, 0x9A44D001A7F91C07#64⟩ := by decide

theorem test_short_seeding_wraps :
    shortSeed32 ⟨0xFFFFFFFF#32, ⟨0#32, 0#32, 0#32, 0#32⟩, 15#64, []⟩ = 0x165667BF#32 ∧
    shortSeed64 ⟨0xFFFFFFFFFFFFFFFF#64, ⟨0#64, 0#64, 0#64, 0#64⟩, 31#64, []⟩ = 0x27D4EB2F165667E3#64 := by decide

theorem test_converge_and_mergeRounds :
    converge (mix xxh32 (initLanes xxh32 0#32) (counting 16)) = 0xE3460F50#32 ∧
    converge (mix xxh64 (initLanes xxh64 0#64) (counting 32)) = 0x7F173BACE7DBD3D9#64 ∧
    mergeRound 0x7F173BACE7DBD3D9#64 0xF4B53B57406B5E99#64 = 0xF4F010017EB0B31E#64 ∧
    mergeLanes 0x7F173BACE7DBD3D9#64 (mix xxh64 (initLanes xxh64 0#64) (counting 32)) = 0xC845DBC88C411C2D#64 := by decide

/-- 4-byte then 1-byte steps, "abcdefg"; 8-byte, 4-byte, then 1-byte, "abcdefghijklm". -/
theorem test_tails :
    tail32 0x165667B8#32 [0x61, 0x62, 0x63, 0x64, 0x65, 0x66, 0x67] = 0xAB96CA5F#32 ∧
    tail64 0x27D4EB2F165667D2#64 [0x61, 0x62, 0x63, 0x64, 0x65, 0x66, 0x67, 0x68, 0x69, 0x6A, 0x6B, 0x6C, 0x6D] =
      0x3DAB3D37F952432F#64 := by decide

theorem test_avalanche :
    avalanche32 0xFFFFFFFF#32 = 0x0173FB23#32 ∧ avalanche32 0x00000001#32 = 0x606D18A8#32 ∧
    avalanche64 0xFFFFFFFFFFFFFFFF#64 = 0x100AB62DAADD9289#64 ∧ avalanche64 0x0000000000000001#64 = 0x283A72A5B9AB93D3#64 := by
  decide

/-- The source's worked examples S1 to S4, and the hex strings of S5 and S6 for "abc". -/
theorem test_source_examples :
    hash32 [0x61] 0#32 = 1426945110#32 ∧ hash32 [0x61] 1#32 = 4111757423#32 ∧
    hash64 [0x61] 0#64 = 15154266338359012955#64 ∧ hash64 [0x61] 1#64 = 16051599287423682246#64 ∧
    hexDigest xxh32 (hash32 [0x61, 0x62, 0x63] 0#32) = "32d153ff".toList ∧
    hexDigest xxh64 (hash64 [0x61, 0x62, 0x63] 0#64) = "44bc2cf5ad770999".toList := by decide

/-- Lengths around the block boundary and with every tail shape, XXH32 (95_test_vectors.md section 7). -/
theorem test_hash32_lengths :
    hash32 (counting 0) 0#32 = 0x02CC5D05#32 ∧ hash32 (counting 15) 0x9E3779B1#32 = 0x987C1D76#32 ∧
    hash32 (counting 16) 0#32 = 0xB72837F4#32 ∧ hash32 (counting 17) 0x9E3779B1#32 = 0x5EFDEA16#32 ∧
    hash32 (counting 39) 0#32 = 0xDDD46630#32 := by decide

/-- The same, XXH64. -/
theorem test_hash64_lengths :
    hash64 (counting 0) 0#64 = 0xEF46DB3751D8E999#64 ∧
    hash64 (counting 31) 0x9E3779B185EBCA8D#64 = 0xF6A0359CAC5381BA#64 ∧
    hash64 (counting 32) 0#64 = 0xCBF59C5116FF32B4#64 ∧ hash64 (counting 33) 0x9E3779B185EBCA8D#64 = 0xA11BD47EF728DA75#64 ∧
    hash64 (counting 55) 0#64 = 0x511CD496994EA839#64 := by decide

/-- Only the low 32 bits of the counter enter the XXH32 long path, and the path is chosen on all 64 (R140, R143). -/
theorem test_long_path_takes_the_low_word :
    large xxh32 ⟨0#32, ⟨0#32, 0#32, 0#32, 0#32⟩, 0x0000000100000000#64, []⟩ = true ∧
    longSeed32 ⟨0#32, ⟨0#32, 0#32, 0#32, 0#32⟩, 0x0000000100000010#64, []⟩ = 0x10#32 := by decide

/-! ### Commands: one step each (95_test_vectors.md sections 4, 5, 8 and 9) -/

/-- `INIT32 0, 0xFFFFFFFF` is legal and wraps two lanes. -/
theorem test_init32_largest_seed :
    (slotsAfter (State.reset.supply (encode (.init32 0 0xFFFFFFFF#64)))).map (·.1) =
      some [⟨true, ⟨0xFFFFFFFF#32, ⟨0x24234427#32, 0x85EBCA76#32, 0xFFFFFFFF#32, 0x61C8864E#32⟩, 0#64, []⟩⟩, Slot.blank 32] := by
  decide

/-- A seed of 33 bits is InvalidArgument, but BadContext comes first. -/
theorem test_init32_faults :
    outcome (State.reset.supply (encode (.init32 0 0x100000000#64))) = halts 0x01#8 ∧
    outcome (State.reset.supply (encode (.init32 2 0x100000000#64))) = halts 0x03#8 ∧
    outcome ((State.resetWith 3).supply (encode (.init32 2 0#64))) = completes 0#64 := by decide

/-- `INIT64 0, 0x100000000` is legal. -/
theorem test_init64_lanes :
    (slotsAfter (State.reset.supply (encode (.init64 0 0x100000000#64)))).map (·.2) =
      some [⟨true, ⟨0x0000000100000000#64, ⟨0x60EA27EFADC0B5D6#64, 0xC2B2AE3E27D4EB4F#64, 0x0000000100000000#64,
        0x61C8864F7A143579#64⟩, 0#64, []⟩⟩, Slot.blank 64] := by decide

/-- Seventeen bytes fold one block and leave one pending. -/
theorem test_upd32_folds_a_block :
    (slotsAfter (ready.supply (encode (.upd32 0 17#32) ++ counting 17))).map (·.1) =
      some [⟨true, ⟨0#32, ⟨0xF817BCCB#32, 0x0222719B#32, 0xD4B0C0A4#32, 0xDEBB7574#32⟩, 17#64, [0x10]⟩⟩, Slot.blank 32] := by
  decide

/-- The faults of UPD, at the counter's end and one byte before it; no payload byte is consumed by a fault. -/
theorem test_upd32_faults :
    outcome (State.reset.supply (encode (.upd32 1 3#32) ++ counting 3)) = halts 0x04#8 ∧
    outcome (nearlyFull.supply (encode (.upd32 0 0x10#32) ++ counting 16)) = halts 0x05#8 ∧
    outcome (nearlyFull.supply (encode (.upd32 0 0x0F#32) ++ counting 15)) = completes 0#64 := by decide

/-- Thirty-two bytes fold one block of XXH64. -/
theorem test_upd64_folds_a_block :
    (slotsAfter (ready.supply (encode (.upd64 0 32#32) ++ counting 32))).map (·.2) =
      some [⟨true, ⟨0#64, ⟨0xF4B53B57406B5E99#64, 0xC3D34B511FC32561#64, 0xCB26C007C8A1553F#64, 0x9A44D001A7F91C07#64⟩,
        32#64, []⟩⟩, Slot.blank 64] := by decide

/-- A payload in two parts: the first step waits for the rest, holding what came. -/
theorem test_upd64_waits_for_its_payload :
    (match step (ready.supply (encode (.upd64 0 3#32) ++ [0x61])) with
      | .next t => some (t.phase, t.pos, t.seq)
      | .fault _ => none
      | .refused _ => none) = some (.payload (.upd64 0) 2, 17, 0) := by decide

/-- The empty message of seed 0, and the two context files are separate. -/
theorem test_dig32_empty_message :
    outcome (ready.supply (encode (.dig32 0))) = completes 0x02CC5D05#64 ∧
    outcome (ready.supply (encode (.dig32 1))) = halts 0x04#8 := by decide

theorem test_dig64_empty_message :
    outcome (ready.supply (encode (.dig64 0))) = completes 0xEF46DB3751D8E999#64 ∧
    outcome (State.reset.supply (encode (.dig64 0))) = halts 0x04#8 := by decide

/-- The destination need not be valid, the source must be; both must exist. -/
theorem test_cpy32_faults :
    outcome (ready.supply (encode (.cpy32 1 0))) = completes 0#64 ∧
    outcome (ready.supply (encode (.cpy32 0 1))) = halts 0x04#8 ∧
    outcome (ready.supply (encode (.cpy32 0 2))) = halts 0x03#8 ∧
    outcome (State.reset.supply (encode (.cpy32 2 3))) = halts 0x03#8 := by decide

/-- The destination takes every field and becomes valid. -/
theorem test_cpy64_copies :
    (slotsAfter (ready.supply (encode (.cpy64 1 0)))).map (·.2) =
      some [⟨true, initState xxh64 0#64⟩, ⟨true, initState xxh64 0#64⟩] := by decide

/-- S1 as one step; a seed of 33 bits faults. -/
theorem test_hash32 :
    outcome (State.reset.supply (encode (.hash32 1#32 0#64) ++ [0x61])) = completes 0x550D7456#64 ∧
    outcome (State.reset.supply (encode (.hash32 0#32 0x100000000#64))) = halts 0x01#8 := by decide

/-- S3 as one step; a seed of 33 bits is legal. -/
theorem test_hash64 :
    outcome (State.reset.supply (encode (.hash64 1#32 0#64) ++ [0x61])) = completes 0xD24EC4F1A98C6E5B#64 ∧
    outcome (State.reset.supply (encode (.hash64 0#32 0x100000000#64))) = completes 0xD944B6C36478CCD6#64 := by decide

theorem test_info32 : outcome (State.reset.supply (encode .info32)) = completes 0x5858483332001004#64 := by decide

theorem test_info64 : outcome (State.reset.supply (encode .info64)) = completes 0x5858483634002008#64 := by decide

/-- IllegalCommand has priority over everything; the stop in HALTED; the wait for a descriptor. -/
theorem test_step_without_a_command :
    outcome (State.reset.supply [0x09, 0, 0x02, 0, 0, 0, 0, 0, 0, 0, 0, 0, 0x01, 0, 0, 0]) = halts 0x02#8 ∧
    (match step { ready with phase := .halted, fault := 0x04#8 } with
      | .fault r => some r
      | .next _ => none
      | .refused _ => none) = some Fault.halted ∧
    slotsAfter (ready.supply (List.replicate 15 0x01)) = some (ready.ctx32, ready.ctx64) := by decide

/-- A machine that took ContextInvalid as its second command, with a byte it will never consume. -/
def stopped : State :=
  { ready with
    phase := .halted
    fault := 0x04#8
    pos := 32
    seq := 2
    stream := [0x01]
    responses := [⟨0x00#8, 0#64⟩, ⟨0x04#8, 0#64⟩] }

/-- A reset request clears a halted machine (R221); the responses already made stay. -/
theorem test_reset_event :
    (match step stopped.assertReset with
      | .next t => some t
      | .fault _ => none
      | .refused _ => none) =
      some { State.reset with responses := [⟨0x00#8, 0#64⟩, ⟨0x04#8, 0#64⟩] } := by decide

/-! ### Building command streams (R90, R92) -/

/-- The example of R90, a comment, an omitted seed, a seed that `IMM` cannot hold, and an index that does not fit. -/
theorem test_assemble_lines :
    (assembleLine "UPD32 0, \"abc\"".toList).map streamOf =
      some [0x02, 0, 0, 0, 0x03, 0, 0, 0, 0, 0, 0, 0, 0, 0, 0, 0, 0x61, 0x62, 0x63] ∧
    assembleLine "HASH64 0x10, hex:0aFF ; two bytes".toList = some [⟨.hash64 2#32 0x10#64, [0x0A, 0xFF]⟩] ∧
    assembleLine "INIT32 1".toList = some [⟨.init32 1 0#64, []⟩] ∧
    assembleLine "INIT64 1, 0x10000000000000000".toList = none ∧
    assembleLine "DIG64 256".toList = none ∧
    assembleLine "NEW32 0, 7, hex:00".toList = some [⟨.init32 0 7#64, []⟩, ⟨.upd32 0 1#32, [0x00]⟩] := by decide

/-- `UPDL` cuts in order; here with parts of at most two bytes. -/
theorem test_cutParts : cutParts 2 5 (counting 5) = [[0x00, 0x01], [0x02, 0x03], [0x04]] ∧ updlParts [] = [[]] := by decide

/-! ### Witnesses: for each statement with hypotheses, a state and operands that meet all of them; for each clause one -/

theorem witness_StepRunsDecodedCommand :
    (ready.supply (encode (.dig32 0))).resetRequest = false ∧ (ready.supply (encode (.dig32 0))).phase = .idle ∧
    decode (ready.supply (encode (.dig32 0))).stream = .ok (.dig32 0, []) := by decide

theorem witness_DecodeInvertsEncode :
    (Instr.cpy64 255 0).WellFormed ∧ (Instr.upd32 0 0xFFFFFFFF#32).WellFormed := by decide

theorem witness_EncodeInvertsDecode :
    decode [0x04, 0x01, 0xFF, 0x00, 0, 0, 0, 0, 0, 0, 0, 0, 0, 0, 0, 0, 0x77] = .ok (.cpy64 255 0, [0x77]) := by decide

theorem witness_DescriptorMatchesItsRow :
    ("HASH64", 0x000000000000000000000000FFFFFFFF#128, 0x00000000000000000000000000000105#128) ∈ opcodeRows ∧
    0x00000000000000010000000200000105#128 &&& 0x000000000000000000000000FFFFFFFF#128 =
      0x00000000000000000000000000000105#128 ∧
    (∀ row ∈ opcodeRows, 0x00000000000000000000000000000007#128 &&& row.2.1 ≠ row.2.2) := by decide

theorem witness_Init32ConstructsOrFaults :
    ready.ctx32.length ≤ 2 ∧ 1 < ready.ctx32.length ∧
    (0x0000000100000000#64).extractLsb' 32 32 ≠ 0#32 ∧ (0x00000000FFFFFFFF#64).extractLsb' 32 32 = 0#32 := by decide

theorem witness_Init64ConstructsOrFaults : ready.ctx64.length ≤ 2 ∧ 1 < ready.ctx64.length := by decide

theorem witness_Upd32AbsorbsOrFaults :
    nearlyFull.ctx32.length ≤ 2 ∧ nearlyFull.ctx32[1]? = some ⟨false, HashState.blank 32⟩ ∧
    (∃ st, nearlyFull.ctx32[0]? = some ⟨true, st⟩ ∧ 2 ^ 64 ≤ st.totalLength.toNat + (0x10#32).toNat) ∧
    (∃ st, nearlyFull.ctx32[0]? = some ⟨true, st⟩ ∧ st.totalLength.toNat + (0x0F#32).toNat < 2 ^ 64 ∧
      (nearlyFull.supply (encode (.upd32 0 0x0F#32) ++ counting 16)).stream.drop 16 = counting 15 ++ [0x0F] ∧
      (counting 15).length = (0x0F#32).toNat) :=
  ⟨by decide, by decide, ⟨_, rfl, by decide⟩, ⟨_, rfl, by decide, by decide, by decide⟩⟩

theorem witness_Upd64AbsorbsOrFaults :
    nearlyFull.ctx64.length ≤ 2 ∧ nearlyFull.ctx64[1]? = some ⟨false, HashState.blank 64⟩ ∧
    (∃ st, nearlyFull.ctx64[0]? = some ⟨true, st⟩ ∧ 2 ^ 64 ≤ st.totalLength.toNat + (0x10#32).toNat) ∧
    (∃ st, nearlyFull.ctx64[0]? = some ⟨true, st⟩ ∧ st.totalLength.toNat + (0x0F#32).toNat < 2 ^ 64 ∧
      (nearlyFull.supply (encode (.upd64 0 0x0F#32) ++ counting 16)).stream.drop 16 = counting 15 ++ [0x0F] ∧
      (counting 15).length = (0x0F#32).toNat) :=
  ⟨by decide, by decide, ⟨_, rfl, by decide⟩, ⟨_, rfl, by decide, by decide, by decide⟩⟩

theorem witness_UpdWaitsForItsPayload :
    ((nearlyFull.supply (encode (.upd32 0 0x0F#32) ++ counting 14)).stream.drop 16).length < (0x0F#32).toNat ∧
    (∃ st, (nearlyFull.supply (encode (.upd32 0 0x0F#32) ++ counting 14)).ctx32[0]? = some ⟨true, st⟩ ∧
      st.totalLength.toNat + (0x0F#32).toNat < 2 ^ 64) ∧
    (∃ st, (nearlyFull.supply (encode (.upd64 0 0x0F#32) ++ counting 14)).ctx64[0]? = some ⟨true, st⟩ ∧
      st.totalLength.toNat + (0x0F#32).toNat < 2 ^ 64) :=
  ⟨by decide, ⟨_, rfl, by decide⟩, ⟨_, rfl, by decide⟩⟩

theorem witness_Dig32RespondsWithDigestOrFaults :
    ready.ctx32.length ≤ 2 ∧ ready.ctx32[1]? = some ⟨false, HashState.blank 32⟩ ∧
    ready.ctx32[0]? = some ⟨true, initState xxh32 0#32⟩ := by decide

theorem witness_Dig64RespondsWithDigestOrFaults :
    ready.ctx64.length ≤ 2 ∧ ready.ctx64[1]? = some ⟨false, HashState.blank 64⟩ ∧
    ready.ctx64[0]? = some ⟨true, initState xxh64 0#64⟩ := by decide

/-- Both commands complete on a valid slot, and both take a fault on slot 1, where the statement also holds. -/
theorem witness_DigIsReadOnlyAndRepeatable :
    (∃ t, exec (.dig32 0) (ready.supply (encode (.dig32 0))) = .next t) ∧
    (∃ t, exec (.dig64 0) (ready.supply (encode (.dig64 0))) = .next t) ∧
    (∃ t, exec (.dig64 1) (ready.supply (encode (.dig64 1))) = .next t) := ⟨⟨_, rfl⟩, ⟨_, rfl⟩, ⟨_, rfl⟩⟩

theorem witness_Cpy32CopiesOrFaults :
    (ready.ctx32.length ≤ 2 ∨ ready.ctx32.length ≤ 0) ∧ (ready.ctx32.length ≤ 0 ∨ ready.ctx32.length ≤ 2) ∧
    1 < ready.ctx32.length ∧ ready.ctx32[1]? = some ⟨false, HashState.blank 32⟩ ∧
    ready.ctx32[0]? = some ⟨true, initState xxh32 0#32⟩ := by decide

theorem witness_Cpy64CopiesOrFaults :
    (ready.ctx64.length ≤ 2 ∨ ready.ctx64.length ≤ 0) ∧ (ready.ctx64.length ≤ 0 ∨ ready.ctx64.length ≤ 2) ∧
    1 < ready.ctx64.length ∧ ready.ctx64[1]? = some ⟨false, HashState.blank 64⟩ ∧
    ready.ctx64[0]? = some ⟨true, initState xxh64 0#64⟩ := by decide

/-- With `cd = 1`, `cs = 0` and the source written afterwards; and with `cd = cs = 0`. -/
theorem witness_ClonesAreIndependent :
    1 < ready.ctx32.length ∧ ready.ctx32[0]? = some ⟨true, initState xxh32 0#32⟩ ∧
    (∃ t u, exec (.cpy32 1 0) ready = .next t ∧ exec (.init32 0 5#64) t = .next u ∧
      writes32 (.init32 0 5#64) = some 0) ∧
    (∃ t u, exec (.cpy32 1 0) ready = .next t ∧ exec (.init32 1 5#64) t = .next u ∧
      writes32 (.init32 1 5#64) = some 1) ∧
    (∃ t, exec (.cpy32 0 0) ready = .next t) ∧
    1 < ready.ctx64.length ∧ ready.ctx64[0]? = some ⟨true, initState xxh64 0#64⟩ ∧
    (∃ t u, exec (.cpy64 1 0) ready = .next t ∧ exec (.init64 0 5#64) t = .next u ∧
      writes64 (.init64 0 5#64) = some 0) ∧
    (∃ t u, exec (.cpy64 1 0) ready = .next t ∧ exec (.init64 1 5#64) t = .next u ∧
      writes64 (.init64 1 5#64) = some 1) ∧
    (∃ t, exec (.cpy64 0 0) ready = .next t) :=
  ⟨by decide, by decide, ⟨_, _, rfl, rfl, rfl⟩, ⟨_, _, rfl, rfl, rfl⟩, ⟨_, rfl⟩, by decide, by decide,
    ⟨_, _, rfl, rfl, rfl⟩, ⟨_, _, rfl, rfl, rfl⟩, ⟨_, rfl⟩⟩

theorem witness_Hash32RespondsWithOneShotDigestOrFaults :
    (0x0000000100000000#64).extractLsb' 32 32 ≠ 0#32 ∧ (0x00000000FFFFFFFF#64).extractLsb' 32 32 = 0#32 ∧
    (ready.supply (encode (.hash32 2#32 0xFFFFFFFF#64) ++ [0x61, 0x62, 0x63])).stream.drop 16 = [0x61, 0x62] ++ [0x63] ∧
    ([0x61, 0x62] : Bytes).length = (2#32).toNat := by decide

theorem witness_HashWaitsForItsPayload :
    ((ready.supply (encode (.hash32 2#32 0xFFFFFFFF#64) ++ [0x61])).stream.drop 16).length < (2#32).toNat ∧
    (0x00000000FFFFFFFF#64).extractLsb' 32 32 = 0#32 := by decide

theorem witness_Hash64RespondsWithOneShotDigest :
    (ready.supply (encode (.hash64 0#32 0#64))).stream.drop 16 = [] ++ [] ∧ ([] : Bytes).length = (0#32).toNat := by decide

theorem witness_HighestPriorityCauseIsReported :
    (ready.supply (0x09 :: List.replicate 15 0xFF)).resetRequest = false ∧
    (ready.supply (0x09 :: List.replicate 15 0xFF)).phase = .idle ∧
    16 ≤ (ready.supply (0x09 :: List.replicate 15 0xFF)).stream.length ∧
    decode (ready.supply (0x09 :: 0x00 :: List.replicate 14 0xFF)).stream = .error .reservedOp ∧
    decode (ready.supply (0x09 :: List.replicate 15 0xFF)).stream = .error .reservedBits ∧
    reportedCause ready (.init32 2 0x100000000#64) = some .badContext ∧
    reportedCause ready (.init32 1 0x100000000#64) = some .invalidArgument ∧
    reportedCause ready (.cpy64 0 1) = some .contextInvalid ∧
    reportedCause nearlyFull (.upd64 0 0x10#32) = some .lengthOverflow := by decide

theorem witness_CommandWithoutCauseCompletes :
    (nearlyFull.supply (encode (.upd32 0 0x0F#32) ++ counting 15)).phase = .idle ∧
    reportedCause (nearlyFull.supply (encode (.upd32 0 0x0F#32) ++ counting 15)) (.upd32 0 0x0F#32) = none ∧
    16 + payloadLength (.upd32 0 0x0F#32) ≤
      (nearlyFull.supply (encode (.upd32 0 0x0F#32) ++ counting 15)).stream.length := by decide

theorem witness_UndecodableDescriptorTakesIllegalCommand :
    (ready.supply (List.replicate 16 0xFF)).resetRequest = false ∧ (ready.supply (List.replicate 16 0xFF)).phase = .idle ∧
    16 ≤ (ready.supply (List.replicate 16 0xFF)).stream.length ∧
    decode (ready.supply (List.replicate 16 0xFF)).stream = .error .reservedBits := by decide

theorem witness_FaultEntryIsPrecise :
    ∃ t, step (ready.supply (encode (.dig32 1))) = .next t ∧ t.phase = .halted := ⟨_, rfl, rfl⟩

theorem witness_EachCommandRaisesItsFaults :
    (ready.supply (encode (.dig32 1))).phase = .idle ∧
    (∃ t, exec (.dig32 1) (ready.supply (encode (.dig32 1))) = .next t ∧ t.phase = .halted) ∧
    Cause.contextInvalid ∈ raisable (.dig32 1) := ⟨rfl, ⟨_, rfl, rfl⟩, by decide⟩

theorem witness_FaultRegisterTellsHalted :
    ((ready.supply (encode (.dig32 1))).fault ≠ 0#8 ↔ (ready.supply (encode (.dig32 1))).phase = .halted) ∧
    ∃ t, step (ready.supply (encode (.dig32 1))) = .next t ∧ t.phase = .halted := ⟨by decide, ⟨_, rfl, rfl⟩⟩

theorem witness_OnlyResetLeavesHaltedOrClearsValid :
    (ready.supply (encode (.dig32 0))).resetRequest = false ∧
    (∃ t, step (ready.supply (encode (.dig32 0))) = .next t) ∧
    (ready.supply (encode (.dig32 0))).ctx32[0]? = some ⟨true, initState xxh32 0#32⟩ ∧
    (ready.supply (encode (.dig32 0))).ctx64[0]? = some ⟨true, initState xxh64 0#64⟩ :=
  ⟨rfl, ⟨_, rfl⟩, rfl, rfl⟩

theorem witness_CommandChangesOnlyItsDestination :
    (∃ t, exec (.cpy32 1 0) ready = .next t ∧ t.phase ≠ .halted) ∧ writes32 (.cpy32 1 0) ≠ some 0 ∧
    writes64 (.cpy32 1 0) ≠ some 1 := ⟨⟨_, rfl, by decide⟩, by decide, by decide⟩

/-- XXH32 slot 0 in the middle of a payload of four bytes, two of which are there. -/
def midPayload : State :=
  { ready with
    ctx32 := [⟨true, advance (initState xxh32 0#32) 4#64⟩, Slot.blank 32]
    phase := .payload (.upd32 0) 4
    stream := [0x61, 0x62] }

theorem witness_PayloadStepChangesOnlyItsSlot :
    midPayload.resetRequest = false ∧ midPayload.phase = .payload (.upd32 0) 4 ∧
    (∃ t, step midPayload = .next t) ∧ Job.upd32 0 ≠ .upd32 1 ∧ Job.upd32 0 ≠ .upd64 0 :=
  ⟨rfl, rfl, ⟨_, rfl⟩, by decide, by decide⟩

theorem witness_PayloadSplitDoesNotMatter :
    midPayload.phase = .payload (.upd32 0) 4 ∧ midPayload.stream.length < 4 := by decide

/-- Two machines that differ in every slot but the named one, and in the counters. -/
theorem witness_ResultDependsOnlyOnNamedSlots :
    let s := ready.supply (encode (.dig32 0))
    let s' := { s with ctx32 := s.ctx32.set 1 ⟨true, initState xxh32 9#32⟩, ctx64 := s.ctx64.set 0 (Slot.blank 64), pos := 64, seq := 3 }
    s.ctx32.length = s'.ctx32.length ∧ s.ctx64.length = s'.ctx64.length ∧
    (∀ c, names32 (.dig32 0) c → s.ctx32[c]? = s'.ctx32[c]?) ∧ (∀ c, names64 (.dig32 0) c → s.ctx64[c]? = s'.ctx64[c]?) ∧
    s.stream = s'.stream ∧ s.phase = .idle ∧ s'.phase = .idle ∧
    (∃ t, exec (.dig32 0) s = .next t) ∧ (∃ t, exec (.dig32 0) s' = .next t) :=
  ⟨rfl, rfl, by rintro c rfl; rfl, fun _ h => h.elim, rfl, rfl, rfl, ⟨_, rfl⟩, ⟨_, rfl⟩⟩

theorem witness_SeedStaysAndLengthGrows :
    let s := ready.supply (encode (.upd32 0 1#32) ++ [0x61#8])
    s.resetRequest = false ∧ (∃ t, step s = .next t) ∧
    s.ctx32[0]? = some ⟨true, initState xxh32 0#32⟩ ∧ s.ctx64[0]? = some ⟨true, initState xxh64 0#64⟩ ∧
    (s.phase = .idle → (∀ imm, s.fetch ≠ .command (.init32 0 imm)) ∧ (∀ d, s.fetch ≠ .command (.cpy32 0 d))) ∧
    (s.phase = .idle → (∀ imm, s.fetch ≠ .command (.init64 0 imm)) ∧ (∀ d, s.fetch ≠ .command (.cpy64 0 d))) := by
  have hf : (ready.supply (encode (.upd32 0 1#32) ++ [0x61#8])).fetch = .command (.upd32 0 1#32) := by decide
  exact ⟨rfl, ⟨_, rfl⟩, rfl, rfl, fun _ => ⟨by rw [hf]; simp, by rw [hf]; simp⟩, fun _ => ⟨by rw [hf]; simp, by rw [hf]; simp⟩⟩

theorem witness_OneResponsePerCommand :
    (ready.supply (encode .info32)).resetRequest = false ∧ ∃ t, step (ready.supply (encode .info32)) = .next t :=
  ⟨rfl, ⟨_, rfl⟩⟩

theorem witness_StreamIsConsumedInOrder :
    midPayload.resetRequest = false ∧ ∃ t, step midPayload = .next t := ⟨rfl, ⟨_, rfl⟩⟩

theorem witness_RotateIsCircular : 0 < 31 ∧ 31 < 32 ∧ 1 < 64 := by decide

theorem witness_ReadsAreLittleEndianSums :
    4 + 1 ≤ (counting 5).length ∧ 4 + 4 ≤ (counting 8).length ∧ 8 + 8 ≤ (counting 16).length := by decide

theorem witness_MixedLanesAreIndependent : (counting 4).length = 4 ∧ (counting 8).length = 8 := by decide

theorem witness_AbsorbFoldsFullBlocksFromTheFront :
    0 < xxh32.block ∧ 0 < xxh64.block ∧ (initState xxh64 0#64).totalLength.toNat + (counting 40).length < 2 ^ 64 := by decide

theorem witness_AbsorbIsChunkingInvariant :
    (⟨0#32, ⟨0#32, 0#32, 0#32, 0#32⟩, 15#64, counting 15⟩ : HashState 32).buf.length < xxh32.block ∧
    (initState xxh64 0#64).buf.length < xxh64.block := by decide

theorem witness_ByteSerialMachineEqualsAbsorb :
    (⟨0#64, ⟨0#64, 0#64, 0#64, 0#64⟩, 31#64, counting 31⟩ : HashState 64).buf.length < xxh64.block := by decide

theorem witness_Tail32IsItsLoop :
    4 ≤ (counting 4).length ∧ 0 < (counting 3).length ∧ (counting 3).length < 4 := by decide

theorem witness_Tail64IsItsLoop :
    8 ≤ (counting 8).length ∧ 4 ≤ (counting 7).length ∧ (counting 7).length < 8 ∧ 0 < (counting 3).length ∧
    (counting 3).length < 4 := by decide

theorem witness_DigestBytesAreMostSignificantFirst :
    digestBytes xxh32 0x550D7456#32 = [0x55, 0x0D, 0x74, 0x56] ∧ 3 < 4 ∧ 7 < 8 := by decide

theorem witness_AssembledCommandsAreWellFormed :
    assembleLine "CPY32 255, 0".toList = some [⟨.cpy32 255 0, []⟩] ∧
    (⟨.cpy32 255 0, []⟩ : Command) ∈ [(⟨.cpy32 255 0, []⟩ : Command)] := by decide

/-- `ready` is a state of the invariant in which a slot of each engine is valid. -/
theorem ready_inv : Inv ready where
  nctx := by decide
  faultReg := by decide
  slots32 c st h := by
    match c with
    | 0 => obtain rfl : initState xxh32 0#32 = st := by simpa [ready] using h
           exact ⟨[], by decide, by decide⟩
    | 1 => simp [ready, Slot.blank] at h
    | c + 2 => simp [ready] at h
  slots64 c st h := by
    match c with
    | 0 => obtain rfl : initState xxh64 0#64 = st := by simpa [ready] using h
           exact ⟨[], by decide, by decide⟩
    | 1 => simp [ready, Slot.blank] at h
    | c + 2 => simp [ready] at h
  payload _ _ h := by simp [ready, State.reset, State.resetWith] at h

theorem witness_EveryStepKeepsTheInvariant : Inv ready ∧ ∃ t, step ready = .next t := ⟨ready_inv, ⟨_, rfl⟩⟩

theorem witness_RestingSlotsKeepTheirNumbers :
    Inv ready ∧ ready.phase = .idle ∧ ready.ctx32[0]? = some ⟨true, initState xxh32 0#32⟩ ∧
    (initState xxh32 0#32).totalLength.toNat < 16 ∧ ready.ctx64[0]? = some ⟨true, initState xxh64 0#64⟩ ∧
    (initState xxh64 0#64).totalLength.toNat < 32 :=
  ⟨ready_inv, rfl, rfl, by decide, rfl, by decide⟩

theorem supplied_inv (bytes : Bytes) : Inv (ready.supply bytes) :=
  ⟨ready_inv.nctx, ready_inv.faultReg, ready_inv.slots32, ready_inv.slots64, ready_inv.payload⟩

theorem witness_RunStatusSaysWhatAStepDoes :
    stopped.resetRequest = false ∧ runStatus stopped = .faulted ∧ runStatus ready = .drained ∧
    runStatus (ready.supply (counting 15)) = .waitingDescriptor ∧
    runStatus { midPayload with stream := [] } = .waitingPayload ∧
    runStatus (ready.supply (counting 16)) = .running ∧ Inv (ready.supply (counting 16)) :=
  ⟨by decide, by decide, by decide, by decide, by decide, by decide, supplied_inv _⟩

theorem witness_ResetMeetsTheInvariant : 1 ≤ 256 ∧ 256 ≤ 256 := by decide

theorem witness_StreamedDigestIsOneShotDigest :
    (∀ part ∈ [counting 3, []], part.length < 2 ^ 32) ∧ [counting 3, []].flatten.length < 2 ^ 64 ∧
    0 < ready.ctx32.length ∧ (0xFFFFFFFF#64).toNat < 2 ^ 32 ∧
    (ready.supply (streamOf (plain (.init32 0 0xFFFFFFFF#64) :: [counting 3, []].map (upd32Command 0) ++
      [plain (.dig32 0)]) ++ [0x01])).stream =
      streamOf (plain (.init32 0 0xFFFFFFFF#64) :: [counting 3, []].map (upd32Command 0) ++ [plain (.dig32 0)]) ++ [0x01] ∧
    0 < ready.ctx64.length ∧
    (ready.supply (streamOf (plain (.init64 0 0xFFFFFFFF#64) :: [counting 3, []].map (upd64Command 0) ++
      [plain (.dig64 0)]) ++ [])).stream =
      streamOf (plain (.init64 0 0xFFFFFFFF#64) :: [counting 3, []].map (upd64Command 0) ++ [plain (.dig64 0)]) ++ [] ∧
    (ready.supply (streamOf [])).phase = .idle :=
  ⟨by decide, by decide, by decide, by decide, rfl, by decide, rfl, rfl⟩

end Sys2Proof.Tests
end

section
/-! PROOFS. Folding blocks and what absorbing a message leaves (41_hash_state.md R125, R133; 10_state.md R27, R28). -/

namespace Sys2Proof.Machine

variable {w : Nat} (E : Engine w)

/-- Folding `m + n` blocks is folding `m`, then `n` of what is left. -/
theorem foldBlocks_add (m n : Nat) (v : Lanes w) (a : Bytes) :
    foldBlocks E (m + n) v a = foldBlocks E n (foldBlocks E m v a).1 (foldBlocks E m v a).2 := by
  induction m generalizing v a with
  | zero => simp [foldBlocks]
  | succ m ih => rw [Nat.add_right_comm]; exact ih _ _

/-- Folding `n` blocks leaves the bytes after them. -/
@[simp] theorem foldBlocks_snd (n : Nat) (v : Lanes w) (a : Bytes) :
    (foldBlocks E n v a).2 = a.drop (n * E.block) := by
  induction n generalizing v a with
  | zero => simp [foldBlocks]
  | succ n ih => rw [foldBlocks, ih, List.drop_drop, Nat.succ_mul, Nat.add_comm]

/-- Blocks that stand in `a` are folded alike when bytes follow `a`. -/
theorem foldBlocks_append (n : Nat) (v : Lanes w) (a b : Bytes) (h : n * E.block ≤ a.length) :
    foldBlocks E n v (a ++ b) = ((foldBlocks E n v a).1, (foldBlocks E n v a).2 ++ b) := by
  induction n generalizing v a with
  | zero => rfl
  | succ n ih =>
    rw [Nat.succ_mul] at h
    have hb : E.block ≤ a.length := by omega
    simp only [foldBlocks]
    rw [List.take_append_of_le_length hb, List.drop_append_of_le_length hb]
    exact ih _ _ (by rw [List.length_drop]; omega)

/-- What `fold` leaves is shorter than a block: the length modulo the block size. -/
theorem fold_snd_length (v : Lanes w) (a : Bytes) : (fold E v a).2.length = a.length % E.block := by
  rw [fold, foldBlocks_snd, List.length_drop, Nat.mod_eq_sub, Nat.mul_comm]

/-- Folding `a`, then what is left of it followed by `b`, is folding `a ++ b` (41_hash_state.md R133). -/
theorem fold_append (hE : 0 < E.block) (v : Lanes w) (a b : Bytes) :
    fold E (fold E v a).1 ((fold E v a).2 ++ b) = fold E v (a ++ b) := by
  have hcount : (a ++ b).length / E.block =
      a.length / E.block + ((fold E v a).2 ++ b).length / E.block := by
    rw [List.length_append, List.length_append, fold_snd_length, Nat.add_comm (_ / _),
      ← Nat.add_mul_div_left _ _ hE]
    congr 1
    have := Nat.mod_add_div a.length E.block
    omega
  have happend := foldBlocks_append E (a.length / E.block) v a b (Nat.div_mul_le_self _ _)
  rw [fold.eq_def E v (a ++ b), hcount, foldBlocks_add, happend]
  rfl

/-- Feeding bytes in two parts is feeding them at once. -/
theorem feed_feed (hE : 0 < E.block) (st : HashState w) (a b : Bytes) :
    feed E (feed E st a) b = feed E st (a ++ b) := by
  simp only [feed, fold_append E hE, ← List.append_assoc]

/-- Feeding does not look at `totalLength`, so advancing may come before or after it. -/
theorem feed_advance (st : HashState w) (n : Word64) (a : Bytes) :
    feed E (advance st n) a = advance (feed E st a) n := rfl

theorem advance_advance (st : HashState w) (m n : Word64) :
    advance (advance st m) n = advance st (m + n) := by
  simp only [advance, BitVec.add_assoc]

@[simp] theorem advance_zero (st : HashState w) : advance st 0#64 = st := by simp [advance]

/-- Absorbing nothing after construction changes nothing. -/
@[simp] theorem absorb_initState_nil (seed : BitVec w) :
    absorb E (initState E seed) [] = initState E seed := by
  simp [absorb, feed, fold, foldBlocks, initState]

/-! ### Being the state of a message -/

/-- Construction is absorbing the empty message. -/
theorem ofMessage_initState (seed : BitVec w) : OfMessage E (initState E seed) 0 :=
  ⟨[], by decide, by simp⟩

variable {E} {st : HashState w}

/-- With no byte missing, `totalLength` is the exact length of the message. -/
theorem OfMessage.exists_absorb (h : OfMessage E st 0) :
    ∃ message : Bytes, message.length = st.totalLength.toNat ∧ st = absorb E (initState E st.seed) message := by
  obtain ⟨message, hlt, hst⟩ := h
  rw [advance_zero] at hst
  refine ⟨message, ?_, hst⟩
  rw [hst, absorb_totalLength, initState_totalLength, BitVec.zero_add, BitVec.toNat_ofNat]
  exact (Nat.mod_eq_of_lt hlt).symm

/-- Announcing `n` further bytes leaves the state of the same message with `n` bytes missing (41_hash_state.md R130). -/
theorem OfMessage.advance (h : OfMessage E st 0) {n : Nat} (hn : st.totalLength.toNat + n < 2 ^ 64) :
    OfMessage E (advance st (BitVec.ofNat 64 n)) n := by
  obtain ⟨message, hlen, hst⟩ := h.exists_absorb
  exact ⟨message, by omega, by rw [advance_seed, ← hst]⟩

/-- Payload bytes that come are absorbed into the message and miss no longer (41_hash_state.md R131). -/
theorem OfMessage.feed (hE : 0 < E.block) {missing : Nat} (h : OfMessage E st missing) {chunk : Bytes}
    (hchunk : chunk.length ≤ missing) : OfMessage E (feed E st chunk) (missing - chunk.length) := by
  obtain ⟨message, hlt, hst⟩ := h
  refine ⟨message ++ chunk, by rw [List.length_append]; omega, ?_⟩
  have hcount : BitVec.ofNat 64 message.length + BitVec.ofNat 64 missing =
      BitVec.ofNat 64 (message ++ chunk).length + BitVec.ofNat 64 (missing - chunk.length) := by
    rw [← BitVec.ofNat_add, ← BitVec.ofNat_add, List.length_append]
    congr 1
    omega
  calc Machine.feed E st chunk
      = Machine.feed E (Machine.advance (absorb E (initState E st.seed) message) (BitVec.ofNat 64 missing)) chunk := by
        rw [← hst]
    _ = Machine.advance (absorb E (initState E st.seed) (message ++ chunk))
          (BitVec.ofNat 64 (missing - chunk.length)) := by
        simp only [absorb, feed_advance, feed_feed E hE, advance_advance, hcount]

/-- The numbers of a state of a message (10_state.md R27). -/
theorem OfMessage.numbers (hE : 0 < E.block) (h : OfMessage E st 0) :
    st.buf.length < E.block ∧ st.buf.length = st.totalLength.toNat % E.block ∧
    (st.totalLength.toNat < E.block → st.v = initLanes E st.seed) ∧
    ∃ message : Bytes, message.length = st.totalLength.toNat ∧
      foldBlocks E (st.totalLength.toNat / E.block) (initLanes E st.seed) message = (st.v, st.buf) := by
  obtain ⟨message, hlen, hst⟩ := h.exists_absorb
  have hfold : fold E (initLanes E st.seed) message = (st.v, st.buf) :=
    (congrArg (fun st' : HashState w => (st'.v, st'.buf)) hst).symm
  have hbuf : st.buf.length = st.totalLength.toNat % E.block := by
    rw [← hlen, ← fold_snd_length E (initLanes E st.seed) message, hfold]
  have hblocks : foldBlocks E (st.totalLength.toNat / E.block) (initLanes E st.seed) message = (st.v, st.buf) := by
    rw [← hlen]; exact hfold
  refine ⟨hbuf ▸ Nat.mod_lt _ hE, hbuf, fun hshort => ?_, message, hlen, hblocks⟩
  rw [Nat.div_eq_of_lt hshort] at hblocks
  exact (congrArg Prod.fst hblocks).symm

end Sys2Proof.Machine
end
section
/-! PROOFS. What consuming a payload leaves of the state, one fact per field. -/

namespace Sys2Proof.Machine

/-- The state in which a UPD or HASH has been accepted and none of its `len` payload bytes consumed: `State.startPayload`
pumps it. -/
def State.inPayload (s : State) (job : Job) (len : Nat) : State := { s with phase := .payload job len }

@[simp] theorem State.inPayload_ctx32 (s : State) (job : Job) (len : Nat) : (s.inPayload job len).ctx32 = s.ctx32 := rfl
@[simp] theorem State.inPayload_ctx64 (s : State) (job : Job) (len : Nat) : (s.inPayload job len).ctx64 = s.ctx64 := rfl

theorem startPayload_eq (s : State) (job : Job) (len : Nat) : s.startPayload job len = (s.inPayload job len).pump := rfl

section Pump

variable {s : State} {job : Job} {remaining : Nat} (hp : s.phase = .payload job remaining)
include hp

/-- The XXH32 slots after a pump are those the available payload bytes were fed to. -/
theorem pump_ctx32 : s.pump.ctx32 = (s.feedJob job (s.stream.take remaining)).1.ctx32 := by
  rcases Nat.lt_or_ge s.stream.length remaining with hlt | hle
  · rw [pump_short s job remaining hp hlt, List.take_of_length_le (Nat.le_of_lt hlt)]
    cases job <;> rfl
  · rw [pump_enough s job remaining hp hle]
    cases job <;> rfl

/-- The XXH64 slots likewise. -/
theorem pump_ctx64 : s.pump.ctx64 = (s.feedJob job (s.stream.take remaining)).1.ctx64 := by
  rcases Nat.lt_or_ge s.stream.length remaining with hlt | hle
  · rw [pump_short s job remaining hp hlt, List.take_of_length_le (Nat.le_of_lt hlt)]
    cases job <;> rfl
  · rw [pump_enough s job remaining hp hle]
    cases job <;> rfl

/-- The phase after a pump: IDLE when every byte came, otherwise PAYLOAD of the same command. -/
theorem pump_phase : s.pump.phase =
    if s.stream.length < remaining then
      .payload (s.feedJob job (s.stream.take remaining)).2 (remaining - s.stream.length)
    else .idle := by
  split
  next hlt =>
    rw [pump_short s job remaining hp hlt, List.take_of_length_le (Nat.le_of_lt hlt)]
    cases job <;> rfl
  next hge =>
    rw [pump_enough s job remaining hp (Nat.le_of_not_lt hge)]
    rfl

theorem pump_ctx32_of_ne {c : Nat} (hc : job ≠ .upd32 c) : s.pump.ctx32[c]? = s.ctx32[c]? := by
  obtain ⟨h32, -⟩ := pump_frame s job remaining hp
  exact h32 c hc

theorem pump_ctx64_of_ne {c : Nat} (hc : job ≠ .upd64 c) : s.pump.ctx64[c]? = s.ctx64[c]? := by
  obtain ⟨-, h64, -⟩ := pump_frame s job remaining hp
  exact h64 c hc

theorem pump_ctx32_length : s.pump.ctx32.length = s.ctx32.length := by
  obtain ⟨-, -, hlen, -⟩ := pump_frame s job remaining hp
  exact hlen

theorem pump_ctx64_length : s.pump.ctx64.length = s.ctx64.length := by
  obtain ⟨-, -, -, hlen, -⟩ := pump_frame s job remaining hp
  exact hlen

theorem pump_fault : s.pump.fault = s.fault := by
  obtain ⟨-, -, -, -, hfault, -⟩ := pump_frame s job remaining hp
  exact hfault

theorem pump_resetRequest : s.pump.resetRequest = s.resetRequest := by
  obtain ⟨-, -, -, -, -, hreset, -⟩ := pump_frame s job remaining hp
  exact hreset

theorem pump_stream : s.pump.stream = s.stream.drop (min remaining s.stream.length) := by
  obtain ⟨-, -, -, -, -, -, hstream, -⟩ := pump_frame s job remaining hp
  exact hstream

theorem pump_pos : s.pump.pos = s.pos + min remaining s.stream.length := by
  obtain ⟨-, -, -, -, -, -, -, hpos, -⟩ := pump_frame s job remaining hp
  exact hpos

theorem pump_phase_ne_halted : s.pump.phase ≠ .halted := by
  rw [pump_phase hp]
  split <;> simp

end Pump

end Sys2Proof.Machine
end

section
/-! PROOFS. The invariant of the machine (10_state.md R20, R27, R28, R31, R32): it holds at reset and every step keeps it. -/

namespace Sys2Proof.Machine

/-! ### The valid slots of one context file -/

/-- The clause of `Inv` about one context file: every valid slot is the state of a message, `missing c` bytes of which are
still to come. -/
def SlotsHold {w : Nat} (E : Engine w) (slots : List (Slot w)) (missing : Nat → Nat) : Prop :=
  ∀ c st, slots[c]? = some ⟨true, st⟩ → OfMessage E st (missing c)

section Slots

variable {w : Nat} {E : Engine w} {slots : List (Slot w)} {missing missing' : Nat → Nat} {c : Nat} {st : HashState w}

theorem slotsHold_blank (n : Nat) : SlotsHold E (List.replicate n (Slot.blank w)) missing := by
  intro c st h
  simp [List.getElem?_replicate, Slot.blank] at h

/-- Writing the state of a message into a slot. -/
theorem SlotsHold.set (h : SlotsHold E slots missing) (hst : OfMessage E st (missing c)) :
    SlotsHold E (slots.set c ⟨true, st⟩) missing := by
  intro d st' hd
  rw [List.getElem?_set] at hd
  split at hd
  next heq =>
    subst heq
    split at hd
    · cases hd; exact hst
    · cases hd
  next => exact h d st' hd

/-- The valid slots after the Hash State of slot `c` changed. -/
theorem getElem?_modify_valid (f : HashState w → HashState w) {d : Nat} {st' : HashState w} :
    (slots.modify c fun slot => { slot with st := f slot.st })[d]? = some ⟨true, st'⟩ ↔
      ∃ st, slots[d]? = some ⟨true, st⟩ ∧ st' = if c = d then f st else st := by
  rw [List.getElem?_modify]
  cases slots[d]? with
  | none => simp
  | some slot =>
    obtain ⟨valid, st⟩ := slot
    by_cases hcd : c = d <;> simp [hcd, and_assoc, eq_comm]

/-- A valid slot is still valid when its Hash State changed. -/
theorem modify_valid (f : HashState w → HashState w) (h : slots[c]? = some ⟨true, st⟩) :
    ∃ st', (slots.modify c fun slot => { slot with st := f slot.st })[c]? = some ⟨true, st'⟩ :=
  ⟨f st, (getElem?_modify_valid f).mpr ⟨st, h, (if_pos rfl).symm⟩⟩

/-- Changing the Hash State of slot `c` where the missing bytes change with it, and no other slot's do. -/
theorem SlotsHold.modify (h : SlotsHold E slots missing) (f : HashState w → HashState w)
    (hf : ∀ st, slots[c]? = some ⟨true, st⟩ → OfMessage E st (missing c) → OfMessage E (f st) (missing' c))
    (hne : ∀ d, c ≠ d → missing' d = missing d) :
    SlotsHold E (slots.modify c fun slot => { slot with st := f slot.st }) missing' := by
  intro d st' hd
  obtain ⟨st, hst, rfl⟩ := (getElem?_modify_valid f).mp hd
  split
  next heq => subst heq; exact hf st hst (h c st hst)
  next hcd => rw [hne d hcd]; exact h d st hst

end Slots

/-! ### Payload bytes still to come -/

theorem missing32_of_idle {s : State} (h : s.phase = .idle) : missing32 s = fun _ => 0 := by
  funext c; simp [missing32, h]

theorem missing64_of_idle {s : State} (h : s.phase = .idle) : missing64 s = fun _ => 0 := by
  funext c; simp [missing64, h]

/-- What the bytes still to come for an XXH32 slot are in PAYLOAD. -/
def jobMissing32 (job : Job) (remaining c : Nat) : Nat := if job = .upd32 c then remaining else 0

/-- What the bytes still to come for an XXH64 slot are in PAYLOAD. -/
def jobMissing64 (job : Job) (remaining c : Nat) : Nat := if job = .upd64 c then remaining else 0

theorem missing32_of_payload {s : State} {job : Job} {remaining : Nat} (h : s.phase = .payload job remaining) :
    missing32 s = jobMissing32 job remaining := by
  funext c
  cases job <;> simp [missing32, jobMissing32, h, eq_comm]

theorem missing64_of_payload {s : State} {job : Job} {remaining : Nat} (h : s.phase = .payload job remaining) :
    missing64 s = jobMissing64 job remaining := by
  funext c
  cases job <;> simp [missing64, jobMissing64, h, eq_comm]

/-- A pump takes the bytes that are there off those still to come; in IDLE none are left. -/
theorem missing32_pump {s : State} {job : Job} {remaining : Nat} (hp : s.phase = .payload job remaining) :
    missing32 s.pump = jobMissing32 job (remaining - s.stream.length) := by
  have hphase := pump_phase hp
  split at hphase
  next =>
    rw [missing32_of_payload hphase]
    cases job <;> rfl
  next hge =>
    rw [missing32_of_idle hphase, Nat.sub_eq_zero_of_le (Nat.le_of_not_lt hge)]
    funext c
    simp [jobMissing32]

theorem missing64_pump {s : State} {job : Job} {remaining : Nat} (hp : s.phase = .payload job remaining) :
    missing64 s.pump = jobMissing64 job (remaining - s.stream.length) := by
  have hphase := pump_phase hp
  split at hphase
  next =>
    rw [missing64_of_payload hphase]
    cases job <;> rfl
  next hge =>
    rw [missing64_of_idle hphase, Nat.sub_eq_zero_of_le (Nat.le_of_not_lt hge)]
    funext c
    simp [jobMissing64]

/-- The bytes a pump takes off are those it feeds. -/
theorem OfMessage.feed_take {w : Nat} {E : Engine w} {st : HashState w} {remaining : Nat} (hE : 0 < E.block)
    (h : OfMessage E st remaining) (stream : Bytes) :
    OfMessage E (Machine.feed E st (stream.take remaining)) (remaining - stream.length) := by
  have hlen : remaining - stream.length = remaining - (stream.take remaining).length := by
    rw [List.length_take]; omega
  rw [hlen]
  exact h.feed hE (List.length_take_le _ _)

theorem xxh32_block_pos : 0 < xxh32.block := by decide

theorem xxh64_block_pos : 0 < xxh64.block := by decide

/-- A Hash State just constructed, of whose `LEN` payload bytes none has come. -/
theorem ofMessage_advance_initState {w : Nat} (E : Engine w) (seed : BitVec w) (len : BitVec 32) :
    OfMessage E (advance (initState E seed) (len.setWidth 64)) len.toNat := by
  rw [← BitVec.ofNat_toNat]
  exact (ofMessage_initState E seed).advance (by rw [initState_totalLength, BitVec.toNat_zero]; omega)

/-! ### Consuming a payload -/

/-- What holds when a UPD or HASH has been accepted: the invariant, except that no payload byte need be still to come, since
`LEN` may be 0. -/
structure Accepted (s : State) (job : Job) (remaining : Nat) : Prop where
  phase : s.phase = .payload job remaining
  nctx : s.ctx32.length = s.ctx64.length ∧ Config.minNctx ≤ s.ctx32.length ∧ s.ctx32.length ≤ Config.maxNctx
  fault : s.fault = 0#8
  slots32 : SlotsHold xxh32 s.ctx32 (jobMissing32 job remaining)
  slots64 : SlotsHold xxh64 s.ctx64 (jobMissing64 job remaining)
  remaining_lt : remaining < 2 ^ 32
  job : JobOk s remaining job

theorem Inv.accepted {s : State} (h : Inv s) {job : Job} {remaining : Nat} (hp : s.phase = .payload job remaining) :
    Accepted s job remaining where
  phase := hp
  nctx := h.nctx
  fault := by simpa [hp] using h.faultReg
  slots32 := missing32_of_payload hp ▸ h.slots32
  slots64 := missing64_of_payload hp ▸ h.slots64
  remaining_lt := (h.payload job remaining hp).2.1
  job := (h.payload job remaining hp).2.2

section Accepted

variable {s : State} {job : Job} {remaining : Nat} (h : Accepted s job remaining)
include h

theorem Accepted.pump_slots32 : SlotsHold xxh32 s.pump.ctx32 (missing32 s.pump) := by
  rw [pump_ctx32 h.phase, missing32_pump h.phase]
  have hslots := h.slots32
  cases job with
  | upd32 c =>
    refine hslots.modify (feed xxh32 · (s.stream.take remaining)) (fun st _ hst => ?_) fun d hd => ?_
    · simp only [jobMissing32, if_true] at hst ⊢
      exact hst.feed_take xxh32_block_pos s.stream
    · simp [jobMissing32, hd]
  | upd64 c => exact hslots
  | hash32 work => exact hslots
  | hash64 work => exact hslots

theorem Accepted.pump_slots64 : SlotsHold xxh64 s.pump.ctx64 (missing64 s.pump) := by
  rw [pump_ctx64 h.phase, missing64_pump h.phase]
  have hslots := h.slots64
  cases job with
  | upd64 c =>
    refine hslots.modify (feed xxh64 · (s.stream.take remaining)) (fun st _ hst => ?_) fun d hd => ?_
    · simp only [jobMissing64, if_true] at hst ⊢
      exact hst.feed_take xxh64_block_pos s.stream
    · simp [jobMissing64, hd]
  | upd32 c => exact hslots
  | hash32 work => exact hslots
  | hash64 work => exact hslots

/-- The command in progress stays one that was accepted. -/
theorem Accepted.pump_job :
    JobOk s.pump (remaining - s.stream.length) (s.feedJob job (s.stream.take remaining)).2 := by
  have hjob := h.job
  cases job with
  | upd32 c =>
    obtain ⟨st, hst⟩ := hjob
    show ∃ st, s.pump.ctx32[c]? = some ⟨true, st⟩
    rw [pump_ctx32 h.phase]
    exact modify_valid (feed xxh32 · (s.stream.take remaining)) hst
  | upd64 c =>
    obtain ⟨st, hst⟩ := hjob
    show ∃ st, s.pump.ctx64[c]? = some ⟨true, st⟩
    rw [pump_ctx64 h.phase]
    exact modify_valid (feed xxh64 · (s.stream.take remaining)) hst
  | hash32 work => exact OfMessage.feed_take xxh32_block_pos hjob s.stream
  | hash64 work => exact OfMessage.feed_take xxh64_block_pos hjob s.stream

/-- Consuming the available payload bytes of an accepted command gives a state of the invariant. -/
theorem Accepted.pump_inv : Inv s.pump where
  nctx := by rw [pump_ctx32_length h.phase, pump_ctx64_length h.phase]; exact h.nctx
  faultReg := by simp [pump_fault h.phase, h.fault, pump_phase_ne_halted h.phase]
  slots32 := h.pump_slots32
  slots64 := h.pump_slots64
  payload job' remaining' hp' := by
    rw [pump_phase h.phase] at hp'
    split at hp'
    next hlt =>
      cases hp'
      exact ⟨by omega, by have := h.remaining_lt; omega, h.pump_job⟩
    next => cases hp'

end Accepted

/-! ### The states a command leaves -/

theorem inv_of_blank {s : State} {n : Nat} (h32 : s.ctx32 = List.replicate n (Slot.blank 32))
    (h64 : s.ctx64 = List.replicate n (Slot.blank 64)) (hp : s.phase = .idle) (hf : s.fault = 0#8) (h1 : 1 ≤ n)
    (h256 : n ≤ 256) : Inv s where
  nctx := by simp [h32, h64, h1, h256]
  faultReg := by simp [hf, hp]
  slots32 := h32 ▸ slotsHold_blank n
  slots64 := h64 ▸ slotsHold_blank n
  payload job remaining h := by simp [hp] at h

/-- The reset state meets the invariant for every `NCTX`. -/
theorem inv_resetWith {n : Nat} (h1 : 1 ≤ n) (h256 : n ≤ 256) : Inv (State.resetWith n) :=
  inv_of_blank rfl rfl rfl rfl h1 h256

section Idle

variable {s : State} (h : Inv s)
include h

theorem Inv.applyReset : Inv s.applyReset := by
  obtain ⟨heq, h1, h256⟩ := h.nctx
  exact inv_of_blank rfl (by rw [State.applyReset_ctx64, heq]) rfl rfl h1 h256

/-- Consuming a descriptor touches nothing the invariant speaks of. -/
theorem Inv.consumeDescriptor : Inv s.consumeDescriptor := ⟨h.nctx, h.faultReg, h.slots32, h.slots64, h.payload⟩

/-- Nor does responding. -/
theorem Inv.complete (value : Word64) : Inv (s.complete value) :=
  ⟨h.nctx, h.faultReg, h.slots32, h.slots64, h.payload⟩

variable (hidle : s.phase = .idle)
include hidle

theorem Inv.slotsHold32_of_idle : SlotsHold xxh32 s.ctx32 fun _ => 0 := missing32_of_idle hidle ▸ h.slots32

theorem Inv.slotsHold64_of_idle : SlotsHold xxh64 s.ctx64 fun _ => 0 := missing64_of_idle hidle ▸ h.slots64

theorem Inv.fault_of_idle : s.fault = 0#8 := by simpa [hidle] using h.faultReg

theorem Inv.takeFault (e : Cause) : Inv (s.takeFault e) where
  nctx := h.nctx
  faultReg := by simp
  slots32 := h.slotsHold32_of_idle hidle
  slots64 := h.slotsHold64_of_idle hidle
  payload job remaining hp := by simp at hp

theorem Inv.setSlot32 {st : HashState 32} (hst : OfMessage xxh32 st 0) (c : Nat) : Inv (s.setSlot32 c ⟨true, st⟩) where
  nctx := by simpa using h.nctx
  faultReg := h.faultReg
  slots32 := by
    have hslots : SlotsHold xxh32 (s.ctx32.set c ⟨true, st⟩) fun _ => 0 := (h.slotsHold32_of_idle hidle).set hst
    rwa [← missing32_of_idle (s := s.setSlot32 c ⟨true, st⟩) hidle] at hslots
  slots64 := h.slots64
  payload job remaining hp := by simp [hidle] at hp

theorem Inv.setSlot64 {st : HashState 64} (hst : OfMessage xxh64 st 0) (c : Nat) : Inv (s.setSlot64 c ⟨true, st⟩) where
  nctx := by simpa using h.nctx
  faultReg := h.faultReg
  slots32 := h.slots32
  slots64 := by
    have hslots : SlotsHold xxh64 (s.ctx64.set c ⟨true, st⟩) fun _ => 0 := (h.slotsHold64_of_idle hidle).set hst
    rwa [← missing64_of_idle (s := s.setSlot64 c ⟨true, st⟩) hidle] at hslots
  payload job remaining hp := by simp [hidle] at hp

/-- Accepting UPD32 of a valid slot whose counter the payload does not overflow. -/
theorem Inv.accepted_upd32 {c : Nat} {len : BitVec 32} {st : HashState 32} (hs : s.ctx32[c]? = some ⟨true, st⟩)
    (ho : st.totalLength.toNat + len.toNat < 2 ^ 64) :
    Accepted ((s.consumeDescriptor.updateSlot32 c (advance · (len.setWidth 64))).inPayload (.upd32 c) len.toNat)
      (.upd32 c) len.toNat where
  phase := rfl
  nctx := by simpa using h.nctx
  fault := h.fault_of_idle hidle
  slots32 := by
    refine (h.slotsHold32_of_idle hidle).modify (advance · (len.setWidth 64)) (fun st' hs' hst' => ?_)
      fun d hd => by simp [jobMissing32, hd]
    obtain rfl : st = st' := by simpa [hs] using hs'
    rw [jobMissing32, if_pos rfl, ← BitVec.ofNat_toNat]
    exact hst'.advance ho
  slots64 := h.slotsHold64_of_idle hidle
  remaining_lt := len.isLt
  job := modify_valid (advance · (len.setWidth 64)) hs

/-- Accepting UPD64 likewise. -/
theorem Inv.accepted_upd64 {c : Nat} {len : BitVec 32} {st : HashState 64} (hs : s.ctx64[c]? = some ⟨true, st⟩)
    (ho : st.totalLength.toNat + len.toNat < 2 ^ 64) :
    Accepted ((s.consumeDescriptor.updateSlot64 c (advance · (len.setWidth 64))).inPayload (.upd64 c) len.toNat)
      (.upd64 c) len.toNat where
  phase := rfl
  nctx := by simpa using h.nctx
  fault := h.fault_of_idle hidle
  slots32 := h.slotsHold32_of_idle hidle
  slots64 := by
    refine (h.slotsHold64_of_idle hidle).modify (advance · (len.setWidth 64)) (fun st' hs' hst' => ?_)
      fun d hd => by simp [jobMissing64, hd]
    obtain rfl : st = st' := by simpa [hs] using hs'
    rw [jobMissing64, if_pos rfl, ← BitVec.ofNat_toNat]
    exact hst'.advance ho
  remaining_lt := len.isLt
  job := modify_valid (advance · (len.setWidth 64)) hs

/-- Accepting HASH32: no slot is in use, and its own Hash State has every payload byte missing. -/
theorem Inv.accepted_hash32 (len : BitVec 32) (seed : Word32) :
    Accepted (s.consumeDescriptor.inPayload (.hash32 (advance (initState xxh32 seed) (len.setWidth 64))) len.toNat)
      (.hash32 (advance (initState xxh32 seed) (len.setWidth 64))) len.toNat where
  phase := rfl
  nctx := h.nctx
  fault := h.fault_of_idle hidle
  slots32 := h.slotsHold32_of_idle hidle
  slots64 := h.slotsHold64_of_idle hidle
  remaining_lt := len.isLt
  job := ofMessage_advance_initState xxh32 seed len

theorem Inv.accepted_hash64 (len : BitVec 32) (seed : Word64) :
    Accepted (s.consumeDescriptor.inPayload (.hash64 (advance (initState xxh64 seed) (len.setWidth 64))) len.toNat)
      (.hash64 (advance (initState xxh64 seed) (len.setWidth 64))) len.toNat where
  phase := rfl
  nctx := h.nctx
  fault := h.fault_of_idle hidle
  slots32 := h.slotsHold32_of_idle hidle
  slots64 := h.slotsHold64_of_idle hidle
  remaining_lt := len.isLt
  job := ofMessage_advance_initState xxh64 seed len

end Idle

/-! ### Every step -/

/-- INIT32 takes a fault or constructs from its seed. -/
theorem exec_init32_cases {s t : State} {c : Nat} {imm : Word64} (h : exec (.init32 c imm) s = .next t) :
    (∃ e, t = s.takeFault e) ∨
    ∃ seed, t = (s.consumeDescriptor.setSlot32 c ⟨true, initState xxh32 seed⟩).complete 0#64 := by
  simp only [exec, execInit32] at h
  split at h
  · cases h; exact .inl ⟨_, rfl⟩
  · split at h
    · cases h; exact .inl ⟨_, rfl⟩
    · cases h; exact .inr ⟨_, rfl⟩

/-- INIT64 takes a fault or constructs from its seed. -/
theorem exec_init64_cases {s t : State} {c : Nat} {imm : Word64} (h : exec (.init64 c imm) s = .next t) :
    (∃ e, t = s.takeFault e) ∨
    ∃ seed, t = (s.consumeDescriptor.setSlot64 c ⟨true, initState xxh64 seed⟩).complete 0#64 := by
  simp only [exec, execInit64] at h
  split at h
  · cases h; exact .inl ⟨_, rfl⟩
  · cases h; exact .inr ⟨_, rfl⟩

/-- Every command executed in IDLE keeps the invariant. -/
theorem Inv.exec {s t : State} (h : Inv s) (hidle : s.phase = .idle) {i : Instr} (ht : exec i s = .next t) : Inv t := by
  have hcon := h.consumeDescriptor
  cases exec_executed i s t ht with
  | fault _ e _ => exact h.takeFault hidle e
  | wrote32 _ c st _ hi =>
    obtain ⟨imm, rfl⟩ | ⟨src, rfl, hsrc⟩ := hi
    · obtain ⟨e, he⟩ | ⟨seed, hseed⟩ := exec_init32_cases ht
      · rw [he]; exact h.takeFault hidle e
      · rw [hseed]; exact (hcon.setSlot32 hidle (ofMessage_initState xxh32 seed) c).complete 0#64
    · exact (hcon.setSlot32 hidle (h.slotsHold32_of_idle hidle src st hsrc) c).complete 0#64
  | wrote64 _ c st _ hi =>
    obtain ⟨imm, rfl⟩ | ⟨src, rfl, hsrc⟩ := hi
    · obtain ⟨e, he⟩ | ⟨seed, hseed⟩ := exec_init64_cases ht
      · rw [he]; exact h.takeFault hidle e
      · rw [hseed]; exact (hcon.setSlot64 hidle (ofMessage_initState xxh64 seed) c).complete 0#64
    · exact (hcon.setSlot64 hidle (h.slotsHold64_of_idle hidle src st hsrc) c).complete 0#64
  | responded _ value _ _ _ => exact hcon.complete value
  | upd32 c len st hs ho => exact (h.accepted_upd32 hidle hs ho).pump_inv
  | upd64 c len st hs ho => exact (h.accepted_upd64 hidle hs ho).pump_inv
  | hash32 len imm seed _ => exact (h.accepted_hash32 hidle len seed).pump_inv
  | hash64 len imm => exact (h.accepted_hash64 hidle len imm).pump_inv

/-- Settles O54: a reset event, waiting, consuming a payload, a refused descriptor and a command each keep the invariant. -/
theorem everyStepKeepsTheInvariant : Obligations.EveryStepKeepsTheInvariant := by
  unfold Obligations.EveryStepKeepsTheInvariant
  intro s t h hstep
  obtain ⟨_, rfl⟩ | ⟨_, ⟨job, remaining, hp, ⟨_, rfl⟩ | ⟨_, rfl⟩⟩ |
    ⟨hidle, ⟨_, rfl⟩ | ⟨_, rfl⟩ | ⟨i, _, hexec⟩⟩⟩ := step_cases s t hstep
  · exact h.applyReset
  · exact h
  · exact (h.accepted hp).pump_inv
  · exact h
  · exact h.takeFault hidle .illegalCommand
  · exact h.exec hidle hexec

/-- Settles O53: right after reset no slot is valid and no command is in progress. -/
theorem resetMeetsTheInvariant : Obligations.ResetMeetsTheInvariant := by
  unfold Obligations.ResetMeetsTheInvariant
  exact ⟨fun n h1 h256 => inv_resetWith h1 h256, inv_resetWith (by decide) (by decide)⟩

/-- Settles O55: with no payload byte still to come, a valid slot is the state of a message. -/
theorem restingSlotsKeepTheirNumbers : Obligations.RestingSlotsKeepTheirNumbers := by
  unfold Obligations.RestingSlotsKeepTheirNumbers
  intro s h hidle
  exact ⟨fun c st hs => (h.slotsHold32_of_idle hidle c st hs).numbers xxh32_block_pos,
    fun c st hs => (h.slotsHold64_of_idle hidle c st hs).numbers xxh64_block_pos⟩

end Sys2Proof.Machine
end
section
/-! PROOFS. What a step leaves alone: the slots a command does not write, `FAULT`, the stream's order, earlier responses
(10_state.md R20, R29, R30, R32, R36). -/

namespace Sys2Proof.Machine

/-! ### Frames of the context files -/

/-- From one context file to the other no slot changes but those of `P`, and no slot comes or goes. -/
structure Framed {w : Nat} (P : Nat → Prop) (slots slots' : List (Slot w)) : Prop where
  slot : ∀ c, ¬ P c → slots'[c]? = slots[c]?
  length : slots'.length = slots.length

section Framed

variable {w : Nat} {P : Nat → Prop} {slots slots' slots'' : List (Slot w)}

theorem Framed.refl : Framed P slots slots := ⟨fun _ _ => rfl, rfl⟩

theorem Framed.trans (h : Framed P slots slots') (h' : Framed P slots' slots'') : Framed P slots slots'' :=
  ⟨fun c hc => (h'.slot c hc).trans (h.slot c hc), h'.length.trans h.length⟩

theorem Framed.set {c : Nat} (hc : P c) (slot : Slot w) : Framed P slots (slots.set c slot) :=
  ⟨fun _ hd => List.getElem?_set_ne (by rintro rfl; exact hd hc), List.length_set⟩

theorem Framed.modify {c : Nat} (hc : P c) (f : Slot w → Slot w) : Framed P slots (slots.modify c f) :=
  ⟨fun _ hd => List.getElem?_modify_ne f slots (by rintro rfl; exact hd hc),
    List.length_modify f slots c⟩

end Framed

section StartPayload

variable {s : State} {job : Job} {len : Nat} {P : Nat → Prop}

/-- Starting on a payload changes only the slot of its job. -/
theorem Framed.startPayload32 {slots : List (Slot 32)} (h : Framed P slots s.ctx32) (hP : ∀ c, job = .upd32 c → P c) :
    Framed P slots (s.startPayload job len).ctx32 :=
  h.trans ⟨fun c hc => pump_ctx32_of_ne (s := s.inPayload job len) rfl fun e => hc (hP c e),
    pump_ctx32_length (s := s.inPayload job len) rfl⟩

theorem Framed.startPayload64 {slots : List (Slot 64)} (h : Framed P slots s.ctx64) (hP : ∀ c, job = .upd64 c → P c) :
    Framed P slots (s.startPayload job len).ctx64 :=
  h.trans ⟨fun c hc => pump_ctx64_of_ne (s := s.inPayload job len) rfl fun e => hc (hP c e),
    pump_ctx64_length (s := s.inPayload job len) rfl⟩

end StartPayload

/-- A command changes only the slots it writes. -/
theorem Executed.framed {s t : State} {i : Instr} (h : Executed s i t) :
    Framed (writes32 i = some ·) s.ctx32 t.ctx32 ∧ Framed (writes64 i = some ·) s.ctx64 t.ctx64 := by
  cases h with
  | fault _ e _ => exact ⟨.refl, .refl⟩
  | wrote32 _ c st _ hi =>
    have hw : writes32 i = some c := by obtain ⟨_, rfl⟩ | ⟨_, rfl, _⟩ := hi <;> rfl
    exact ⟨.set hw _, .refl⟩
  | wrote64 _ c st _ hi =>
    have hw : writes64 i = some c := by obtain ⟨_, rfl⟩ | ⟨_, rfl, _⟩ := hi <;> rfl
    exact ⟨.refl, .set hw _⟩
  | responded _ value _ _ _ => exact ⟨.refl, .refl⟩
  | upd32 c len st _ _ =>
    have hw : writes32 (.upd32 c len) = some c := rfl
    have hjob : ∀ d, Job.upd32 c = .upd32 d → writes32 (.upd32 c len) = some d := fun d e => by cases e; rfl
    exact ⟨.startPayload32 (.modify hw _) hjob, .startPayload64 .refl (by simp)⟩
  | upd64 c len st _ _ =>
    have hw : writes64 (.upd64 c len) = some c := rfl
    have hjob : ∀ d, Job.upd64 c = .upd64 d → writes64 (.upd64 c len) = some d := fun d e => by cases e; rfl
    exact ⟨.startPayload32 .refl (by simp), .startPayload64 (.modify hw _) hjob⟩
  | hash32 len imm seed _ => exact ⟨.startPayload32 .refl (by simp), .startPayload64 .refl (by simp)⟩
  | hash64 len imm => exact ⟨.startPayload32 .refl (by simp), .startPayload64 .refl (by simp)⟩

/-! ### How a command ends -/

/-- `s` with other context files. -/
def State.withSlots (s : State) (ctx32 : List (Slot 32)) (ctx64 : List (Slot 64)) : State :=
  { s with ctx32 := ctx32, ctx64 := ctx64 }

/-- A command takes a fault, or consumes its descriptor, changes slots alone, and completes or starts on its payload. -/
theorem Executed.ends {s t : State} {i : Instr} (h : Executed s i t) :
    (∃ e ∈ raisable i, t = s.takeFault e) ∨
    ∃ ctx32 ctx64, (∃ value, t = (s.consumeDescriptor.withSlots ctx32 ctx64).complete value) ∨
      ∃ job len, t = (s.consumeDescriptor.withSlots ctx32 ctx64).startPayload job len := by
  cases h with
  | fault i e he => exact .inl ⟨e, he, rfl⟩
  | wrote32 i c st _ _ => exact .inr ⟨s.ctx32.set c ⟨true, st⟩, s.ctx64, .inl ⟨_, rfl⟩⟩
  | wrote64 i c st _ _ => exact .inr ⟨s.ctx32, s.ctx64.set c ⟨true, st⟩, .inl ⟨_, rfl⟩⟩
  | responded i value _ _ _ => exact .inr ⟨s.ctx32, s.ctx64, .inl ⟨_, rfl⟩⟩
  | upd32 c len st _ _ =>
    exact .inr ⟨(s.updateSlot32 c (advance · (len.setWidth 64))).ctx32, s.ctx64, .inr ⟨_, _, rfl⟩⟩
  | upd64 c len st _ _ =>
    exact .inr ⟨s.ctx32, (s.updateSlot64 c (advance · (len.setWidth 64))).ctx64, .inr ⟨_, _, rfl⟩⟩
  | hash32 len imm seed _ => exact .inr ⟨s.ctx32, s.ctx64, .inr ⟨_, _, rfl⟩⟩
  | hash64 len imm => exact .inr ⟨s.ctx32, s.ctx64, .inr ⟨_, _, rfl⟩⟩

/-- A command leaves the reset input alone. -/
theorem Executed.resetRequest {s t : State} {i : Instr} (h : Executed s i t) : t.resetRequest = s.resetRequest := by
  obtain ⟨e, _, rfl⟩ | ⟨ctx32, ctx64, ⟨value, rfl⟩ | ⟨job, len, rfl⟩⟩ := h.ends
  · rfl
  · rfl
  · exact pump_resetRequest rfl

/-- A command takes a fault or leaves `FAULT` alone; in IDLE the second is no halt. -/
theorem Executed.fault_or_kept {s t : State} {i : Instr} (h : Executed s i t) :
    (∃ e ∈ raisable i, t = s.takeFault e) ∨ (t.fault = s.fault ∧ (s.phase = .idle → t.phase ≠ .halted)) := by
  obtain hfault | ⟨ctx32, ctx64, ⟨value, rfl⟩ | ⟨job, len, rfl⟩⟩ := h.ends
  · exact .inl hfault
  · exact .inr ⟨rfl, fun hidle => by simp [State.withSlots, hidle]⟩
  · exact .inr ⟨pump_fault rfl, fun _ => pump_phase_ne_halted rfl⟩

/-! ### How a step without reset goes -/

/-- The ways a step goes when no reset is requested. -/
inductive RunStep (s : State) : State → Prop where
  /-- bytes are missing -/
  | waits (hrun : s.phase ≠ .halted) : RunStep s s
  /-- payload bytes are consumed -/
  | pumps (job : Job) (remaining : Nat) (hp : s.phase = .payload job remaining) : RunStep s s.pump
  /-- the descriptor is no command -/
  | illegal (hidle : s.phase = .idle) (hfetch : s.fetch = .illegal) : RunStep s (s.takeFault .illegalCommand)
  /-- a command is executed -/
  | command (t : State) (i : Instr) (hidle : s.phase = .idle) (hfetch : s.fetch = .command i) (hexec : Executed s i t) :
      RunStep s t

/-- Whatever a step without reset answers as a next state is one of these. -/
theorem step_runStep {s t : State} (hr : s.resetRequest = false) (h : step s = .next t) : RunStep s t := by
  obtain ⟨hr', _⟩ | ⟨_, ⟨job, remaining, hp, ⟨_, rfl⟩ | ⟨_, rfl⟩⟩ |
    ⟨hidle, ⟨_, rfl⟩ | ⟨hfetch, rfl⟩ | ⟨i, hfetch, hexec⟩⟩⟩ := step_cases s t h
  · rw [hr] at hr'; cases hr'
  · exact .waits (by simp [hp])
  · exact .pumps job remaining hp
  · exact .waits (by simp [hidle])
  · exact .illegal hidle hfetch
  · exact .command t i hidle hfetch (exec_executed i s t hexec)

/-- Without reset a step takes a fault, or neither halts nor changes `FAULT`. -/
theorem RunStep.fault_or_kept {s t : State} (h : RunStep s t) :
    (∃ e, t = s.takeFault e) ∨ (s.phase ≠ .halted ∧ t.phase ≠ .halted ∧ t.fault = s.fault) := by
  cases h with
  | waits hrun => exact .inr ⟨hrun, hrun, rfl⟩
  | pumps job remaining hp => exact .inr ⟨by simp [hp], pump_phase_ne_halted hp, pump_fault hp⟩
  | illegal _ _ => exact .inl ⟨_, rfl⟩
  | command _ i hidle _ hexec =>
    obtain ⟨e, _, he⟩ | ⟨hfault, hphase⟩ := hexec.fault_or_kept
    · exact .inl ⟨e, he⟩
    · exact .inr ⟨by simp [hidle], hphase hidle, hfault⟩

/-! ### Responses -/

/-- From `s` to `t` no response is made, or one that `seq` counts, of a status of 60_exceptions.md R190. -/
def RespondsAtMostOnce (s t : State) : Prop :=
  (t.responses = s.responses ∧ t.seq = s.seq) ∨
    ∃ r : Response, t.responses = s.responses ++ [r] ∧ t.seq = s.seq + 1 ∧ r.status.toNat ≤ 5 ∧
      (r.status ≠ 0x00#8 → r.value = 0#64)

theorem takeFault_respondsAtMostOnce (s : State) (e : Cause) : RespondsAtMostOnce s (s.takeFault e) := by
  have hcode : (causeCode e).toNat ≤ 5 := by cases e <;> decide
  exact .inr ⟨⟨causeCode e, 0#64⟩, rfl, rfl, hcode, fun _ => rfl⟩

theorem complete_respondsAtMostOnce (s : State) (value : Word64) : RespondsAtMostOnce s (s.complete value) :=
  .inr ⟨⟨0x00#8, value⟩, rfl, rfl, Nat.zero_le 5, fun hne => absurd rfl hne⟩

theorem pump_respondsAtMostOnce {s : State} {job : Job} {remaining : Nat} (hp : s.phase = .payload job remaining) :
    RespondsAtMostOnce s s.pump := by
  obtain ⟨-, -, -, -, -, -, -, -, ⟨-, hseq, value, hresp⟩ | ⟨-, -, hseq, hresp⟩⟩ := pump_frame s job remaining hp
  · exact .inr ⟨⟨0x00#8, value⟩, hresp, hseq, Nat.zero_le 5, fun hne => absurd rfl hne⟩
  · exact .inl ⟨hresp, hseq⟩

theorem Executed.respondsAtMostOnce {s t : State} {i : Instr} (h : Executed s i t) : RespondsAtMostOnce s t := by
  obtain ⟨e, _, rfl⟩ | ⟨ctx32, ctx64, ⟨value, rfl⟩ | ⟨job, len, rfl⟩⟩ := h.ends
  · exact takeFault_respondsAtMostOnce s e
  · exact complete_respondsAtMostOnce (s.consumeDescriptor.withSlots ctx32 ctx64) value
  · exact pump_respondsAtMostOnce (s := (s.consumeDescriptor.withSlots ctx32 ctx64).inPayload job len) rfl

/-! ### The stream -/

/-- From `s` to `t` bytes are dropped from the front of the stream, and `pos` counts them. -/
def ConsumesFront (s t : State) : Prop :=
  ∃ n, n ≤ s.stream.length ∧ t.stream = s.stream.drop n ∧ t.pos = s.pos + n

theorem ConsumesFront.refl (s : State) : ConsumesFront s s := ⟨0, Nat.zero_le _, rfl, rfl⟩

theorem ConsumesFront.trans {s t u : State} (h : ConsumesFront s t) (h' : ConsumesFront t u) : ConsumesFront s u := by
  obtain ⟨n, hn, hstream, hpos⟩ := h
  obtain ⟨m, hm, hstream', hpos'⟩ := h'
  rw [hstream, List.length_drop] at hm
  exact ⟨n + m, by omega, by rw [hstream', hstream, List.drop_drop], by rw [hpos', hpos, Nat.add_assoc]⟩

theorem consumeDescriptor_consumesFront {s : State} (h : 16 ≤ s.stream.length) : ConsumesFront s s.consumeDescriptor :=
  ⟨16, h, rfl, rfl⟩

theorem pump_consumesFront {s : State} {job : Job} {remaining : Nat} (hp : s.phase = .payload job remaining) :
    ConsumesFront s s.pump :=
  ⟨_, Nat.min_le_right _ _, pump_stream hp, pump_pos hp⟩

theorem Executed.consumesFront {s t : State} {i : Instr} (h : Executed s i t) (hlen : 16 ≤ s.stream.length) :
    ConsumesFront s t := by
  have hdesc := consumeDescriptor_consumesFront hlen
  obtain ⟨e, _, rfl⟩ | ⟨ctx32, ctx64, ⟨value, rfl⟩ | ⟨job, len, rfl⟩⟩ := h.ends
  · exact hdesc
  · exact hdesc
  · exact hdesc.trans (pump_consumesFront (s := (s.consumeDescriptor.withSlots ctx32 ctx64).inPayload job len) rfl)

/-- Where the fetch finds anything, a whole descriptor is there. -/
theorem length_of_fetch {s : State} (h : s.fetch ≠ .waiting) : 16 ≤ s.stream.length := by
  obtain ⟨_, hwait⟩ | ⟨hlen, _⟩ := fetch_cases s
  · exact absurd hwait h
  · exact hlen

/-! ### Seeds and lengths -/

/-- Slot `c`, if valid, stays valid and keeps its seed, and its `totalLength` does not fall. -/
def SeedKept {w : Nat} (slots slots' : List (Slot w)) (c : Nat) : Prop :=
  ∀ st, slots[c]? = some ⟨true, st⟩ →
    ∃ st', slots'[c]? = some ⟨true, st'⟩ ∧ st'.seed = st.seed ∧ st.totalLength.toNat ≤ st'.totalLength.toNat

section SeedKept

variable {w : Nat} {slots slots' slots'' : List (Slot w)} {c : Nat}

theorem SeedKept.of_eq (h : slots'[c]? = slots[c]?) : SeedKept slots slots' c :=
  fun st hst => ⟨st, h.trans hst, rfl, Nat.le_refl _⟩

theorem SeedKept.trans (h : SeedKept slots slots' c) (h' : SeedKept slots' slots'' c) : SeedKept slots slots'' c := by
  intro st hst
  obtain ⟨st', hst', hseed, hlen⟩ := h st hst
  obtain ⟨st'', hst'', hseed', hlen'⟩ := h' st' hst'
  exact ⟨st'', hst'', hseed'.trans hseed, hlen.trans hlen'⟩

/-- Changing Hash States by a function that keeps the seed and does not lower the length of the slot changed. -/
theorem SeedKept.modify (d : Nat) (f : HashState w → HashState w) (hseed : ∀ st, (f st).seed = st.seed)
    (hlen : ∀ st, slots[d]? = some ⟨true, st⟩ → st.totalLength.toNat ≤ (f st).totalLength.toNat) :
    SeedKept slots (slots.modify d fun slot => { slot with st := f slot.st }) c := by
  intro st hst
  refine ⟨_, (getElem?_modify_valid f).mpr ⟨st, hst, rfl⟩, ?_⟩
  split
  next heq => subst heq; exact ⟨hseed st, hlen st hst⟩
  next => exact ⟨rfl, Nat.le_refl _⟩

/-- Advancing by a payload length that does not overflow. -/
theorem SeedKept.advance {d : Nat} {st : HashState w} {len : BitVec 32} (hs : slots[d]? = some ⟨true, st⟩)
    (ho : st.totalLength.toNat + len.toNat < 2 ^ 64) :
    SeedKept slots (slots.modify d fun slot => { slot with st := advance slot.st (len.setWidth 64) }) c := by
  refine .modify d (Machine.advance · (len.setWidth 64)) (fun _ => rfl) fun st' hs' => ?_
  obtain rfl : st = st' := by simpa [hs] using hs'
  have hsum : (st.totalLength + len.setWidth 64).toNat = st.totalLength.toNat + len.toNat := by
    rw [BitVec.toNat_add, BitVec.toNat_setWidth, Nat.mod_eq_of_lt (a := len.toNat) (by omega), Nat.mod_eq_of_lt ho]
  rw [advance_totalLength, hsum]
  exact Nat.le_add_right _ _

end SeedKept

/-- Payload bytes change neither a seed nor a length. -/
theorem pump_seedKept32 {s : State} {job : Job} {remaining : Nat} (hp : s.phase = .payload job remaining) (c : Nat) :
    SeedKept s.ctx32 s.pump.ctx32 c := by
  rw [pump_ctx32 hp]
  cases job with
  | upd32 d => exact .modify d (feed xxh32 · _) (fun _ => rfl) fun _ _ => Nat.le_refl _
  | upd64 d => exact .of_eq rfl
  | hash32 work => exact .of_eq rfl
  | hash64 work => exact .of_eq rfl

theorem pump_seedKept64 {s : State} {job : Job} {remaining : Nat} (hp : s.phase = .payload job remaining) (c : Nat) :
    SeedKept s.ctx64 s.pump.ctx64 c := by
  rw [pump_ctx64 hp]
  cases job with
  | upd64 d => exact .modify d (feed xxh64 · _) (fun _ => rfl) fun _ _ => Nat.le_refl _
  | upd32 d => exact .of_eq rfl
  | hash32 work => exact .of_eq rfl
  | hash64 work => exact .of_eq rfl

/-- A command that is no INIT32 of the slot and no CPY32 onto it. -/
theorem Executed.seedKept32 {s t : State} {i : Instr} (h : Executed s i t) {c : Nat} (hinit : ∀ imm, i ≠ .init32 c imm)
    (hcpy : ∀ src, i ≠ .cpy32 c src) : SeedKept s.ctx32 t.ctx32 c := by
  by_cases hw : writes32 i = some c
  · cases h with
    | wrote32 i d st _ hi =>
      obtain ⟨imm, rfl⟩ | ⟨src, rfl, _⟩ := hi
      · cases hw; exact absurd rfl (hinit imm)
      · cases hw; exact absurd rfl (hcpy src)
    | upd32 d len st hs ho =>
      exact (SeedKept.advance hs ho).trans
        (pump_seedKept32 (s := (s.consumeDescriptor.updateSlot32 d (advance · (len.setWidth 64))).inPayload _ _) rfl c)
    | fault i e _ => exact .of_eq rfl
    | wrote64 i d st _ _ => exact .of_eq rfl
    | responded i value h32 _ _ => exact .of_eq rfl
    | upd64 d len st _ _ => cases hw
    | hash32 len imm seed _ => cases hw
    | hash64 len imm => cases hw
  · exact .of_eq (h.framed.1.slot c hw)

/-- A command that is no INIT64 of the slot and no CPY64 onto it. -/
theorem Executed.seedKept64 {s t : State} {i : Instr} (h : Executed s i t) {c : Nat} (hinit : ∀ imm, i ≠ .init64 c imm)
    (hcpy : ∀ src, i ≠ .cpy64 c src) : SeedKept s.ctx64 t.ctx64 c := by
  by_cases hw : writes64 i = some c
  · cases h with
    | wrote64 i d st _ hi =>
      obtain ⟨imm, rfl⟩ | ⟨src, rfl, _⟩ := hi
      · cases hw; exact absurd rfl (hinit imm)
      · cases hw; exact absurd rfl (hcpy src)
    | upd64 d len st hs ho =>
      exact (SeedKept.advance hs ho).trans
        (pump_seedKept64 (s := (s.consumeDescriptor.updateSlot64 d (advance · (len.setWidth 64))).inPayload _ _) rfl c)
    | fault i e _ => exact .of_eq rfl
    | wrote32 i d st _ _ => exact .of_eq rfl
    | responded i value _ h64 _ => exact .of_eq rfl
    | upd32 d len st _ _ => cases hw
    | hash32 len imm seed _ => cases hw
    | hash64 len imm => cases hw
  · exact .of_eq (h.framed.2.slot c hw)

/-! ### The statements -/

/-- Settles O26: a reset event clears both, fault entry sets both, and every other step leaves both. -/
theorem faultRegisterTellsHalted : Obligations.FaultRegisterTellsHalted := by
  unfold Obligations.FaultRegisterTellsHalted
  intro s t hs h
  cases hr : s.resetRequest with
  | true =>
    obtain ⟨_, rfl⟩ | ⟨hr', _⟩ := step_cases s t h
    · simp
    · rw [hr] at hr'; cases hr'
  | false =>
    obtain ⟨e, rfl⟩ | ⟨hphase, hphase', hfault⟩ := (step_runStep hr h).fault_or_kept
    · simp
    · have hzero : s.fault = 0#8 := by simpa [hphase] using hs
      simp [hfault, hzero, hphase']

/-- Settles O31, from the frame of each way a command ends. -/
theorem commandChangesOnlyItsDestination : Obligations.CommandChangesOnlyItsDestination := by
  unfold Obligations.CommandChangesOnlyItsDestination
  intro i s t h
  have hexec := exec_executed i s t h
  obtain ⟨h32, h64⟩ := hexec.framed
  refine ⟨h32.slot, h64.slot, h32.length, h64.length, hexec.resetRequest, fun hrun => ?_⟩
  obtain ⟨e, _, rfl⟩ | ⟨hfault, _⟩ := hexec.fault_or_kept
  · exact absurd rfl hrun
  · exact hfault

/-- Settles O32: in PAYLOAD a step waits or consumes payload bytes. -/
theorem payloadStepChangesOnlyItsSlot : Obligations.PayloadStepChangesOnlyItsSlot := by
  unfold Obligations.PayloadStepChangesOnlyItsSlot
  intro s t job remaining hr hp h
  cases step_runStep hr h with
  | waits _ => exact ⟨fun _ _ => rfl, fun _ _ => rfl, rfl, rfl, rfl⟩
  | pumps _ _ _ =>
    exact ⟨fun c hc => pump_ctx32_of_ne hp hc, fun c hc => pump_ctx64_of_ne hp hc, pump_ctx32_length hp,
      pump_ctx64_length hp, pump_fault hp⟩
  | illegal hidle _ => rw [hp] at hidle; cases hidle
  | command _ _ hidle _ _ => rw [hp] at hidle; cases hidle

/-- Settles O34: a slot is advanced by a length that does not overflow, fed, or left alone. -/
theorem seedStaysAndLengthGrows : Obligations.SeedStaysAndLengthGrows := by
  unfold Obligations.SeedStaysAndLengthGrows
  intro s t c hr h
  cases step_runStep hr h with
  | waits _ => exact ⟨fun st hst _ => SeedKept.of_eq rfl st hst, fun st hst _ => SeedKept.of_eq rfl st hst⟩
  | pumps job remaining hp =>
    exact ⟨fun st hst _ => pump_seedKept32 hp c st hst, fun st hst _ => pump_seedKept64 hp c st hst⟩
  | illegal _ _ => exact ⟨fun st hst _ => SeedKept.of_eq rfl st hst, fun st hst _ => SeedKept.of_eq rfl st hst⟩
  | command _ i hidle hfetch hexec =>
    have hcommand {j : Instr} (hno : s.fetch ≠ .command j) : i ≠ j := fun e => hno (e ▸ hfetch)
    refine ⟨fun st hst hno => ?_, fun st hst hno => ?_⟩
    · obtain ⟨hinit, hcpy⟩ := hno hidle
      exact hexec.seedKept32 (fun imm => hcommand (hinit imm)) (fun src => hcommand (hcpy src)) st hst
    · obtain ⟨hinit, hcpy⟩ := hno hidle
      exact hexec.seedKept64 (fun imm => hcommand (hinit imm)) (fun src => hcommand (hcpy src)) st hst

/-- Settles O35: only fault entry, completing and the last payload byte respond. -/
theorem oneResponsePerCommand : Obligations.OneResponsePerCommand := by
  unfold Obligations.OneResponsePerCommand
  intro s t hr h
  cases step_runStep hr h with
  | waits _ => exact .inl ⟨rfl, rfl⟩
  | pumps job remaining hp => exact pump_respondsAtMostOnce hp
  | illegal _ _ => exact takeFault_respondsAtMostOnce s .illegalCommand
  | command _ i _ _ hexec => exact hexec.respondsAtMostOnce

/-- Settles O36: a descriptor is consumed only where all of it is there, and then payload bytes that are there. -/
theorem streamIsConsumedInOrder : Obligations.StreamIsConsumedInOrder := by
  unfold Obligations.StreamIsConsumedInOrder
  intro s t hr h
  cases step_runStep hr h with
  | waits _ => exact ConsumesFront.refl s
  | pumps job remaining hp => exact pump_consumesFront hp
  | illegal _ hfetch => exact consumeDescriptor_consumesFront (length_of_fetch (by simp [hfetch]))
  | command _ i _ hfetch hexec => exact hexec.consumesFront (length_of_fetch (by simp [hfetch]))

/-- Settles O28: every slot is the blank slot, and the other fields are the table's by definition. -/
theorem resetStateIsTheTable : Obligations.ResetStateIsTheTable := by
  unfold Obligations.ResetStateIsTheTable
  intro n
  refine ⟨List.length_replicate, List.length_replicate, fun slot h => ?_, fun slot h => ?_, rfl, rfl, rfl, rfl, rfl⟩
  · rw [List.eq_of_mem_replicate h]; rfl
  · rw [List.eq_of_mem_replicate h]; rfl

end Sys2Proof.Machine
end
section
/-! PROOFS. Two machines that look alike to a command stay alike (10_state.md R37). -/

namespace Sys2Proof.Machine

/-- Two machines agree on the XXH32 slots of `P`, the XXH64 slots of `Q`, the numbers of slots, the phase and the stream, and
have made the same responses since their records were `r` and `r'`. -/
structure Alike (P Q : Nat → Prop) (r r' : List Response) (s s' : State) : Prop where
  length32 : s.ctx32.length = s'.ctx32.length
  length64 : s.ctx64.length = s'.ctx64.length
  slots32 : ∀ c, P c → s.ctx32[c]? = s'.ctx32[c]?
  slots64 : ∀ c, Q c → s.ctx64[c]? = s'.ctx64[c]?
  phase : s.phase = s'.phase
  stream : s.stream = s'.stream
  responses : ∃ new, s.responses = r ++ new ∧ s'.responses = r' ++ new

/-- Outcomes whose next states are alike. -/
def OutcomesAlike (P Q : Nat → Prop) (r r' : List Response) (o o' : Host.Outcome State Fault Refusal) : Prop :=
  ∀ t t', o = .next t → o' = .next t' → Alike P Q r r' t t'

section Alike

variable {P Q : Nat → Prop} {r r' : List Response} {s s' : State} (h : Alike P Q r r' s s')
include h

theorem Alike.next : OutcomesAlike P Q r r' (.next s) (.next s') := by
  intro t t' ht ht'
  cases ht; cases ht'; exact h

theorem Alike.consume (n : Nat) : Alike P Q r r' (s.consume n) (s'.consume n) :=
  { h with stream := congrArg (List.drop n) h.stream }

theorem Alike.setPhase (phase : Phase) : Alike P Q r r' { s with phase := phase } { s' with phase := phase } :=
  { h with phase := rfl }

theorem Alike.respond (status : BitVec 8) (value : Word64) :
    Alike P Q r r' (s.respond status value) (s'.respond status value) := by
  obtain ⟨new, hr, hr'⟩ := h.responses
  exact { h with responses := ⟨new ++ [⟨status, value⟩], by simp [hr], by simp [hr']⟩ }

theorem Alike.complete (value : Word64) : Alike P Q r r' (s.complete value) (s'.complete value) := h.respond _ value

theorem Alike.raise (e : Cause) : OutcomesAlike P Q r r' (raise e s) (raise e s') := by
  have halted : Alike P Q r r' (s.takeFault e) (s'.takeFault e) :=
    { (h.consume 16).respond (causeCode e) 0#64 with phase := rfl }
  exact halted.next

theorem Alike.setSlot32 (c : Nat) (slot : Slot 32) : Alike P Q r r' (s.setSlot32 c slot) (s'.setSlot32 c slot) :=
  { h with
    length32 := by simp [h.length32]
    slots32 := fun d hd => by simp [List.getElem?_set, h.length32, h.slots32 d hd] }

theorem Alike.setSlot64 (c : Nat) (slot : Slot 64) : Alike P Q r r' (s.setSlot64 c slot) (s'.setSlot64 c slot) :=
  { h with
    length64 := by simp [h.length64]
    slots64 := fun d hd => by simp [List.getElem?_set, h.length64, h.slots64 d hd] }

theorem Alike.updateSlot32 (c : Nat) (f : HashState 32 → HashState 32) :
    Alike P Q r r' (s.updateSlot32 c f) (s'.updateSlot32 c f) :=
  { h with
    length32 := by simp [h.length32]
    slots32 := fun d hd => by simp [List.getElem?_modify, h.slots32 d hd] }

theorem Alike.updateSlot64 (c : Nat) (f : HashState 64 → HashState 64) :
    Alike P Q r r' (s.updateSlot64 c f) (s'.updateSlot64 c f) :=
  { h with
    length64 := by simp [h.length64]
    slots64 := fun d hd => by simp [List.getElem?_modify, h.slots64 d hd] }

theorem Alike.feedJob (job : Job) (chunk : Bytes) :
    Alike P Q r r' (s.feedJob job chunk).1 (s'.feedJob job chunk).1 ∧
      (s.feedJob job chunk).2 = (s'.feedJob job chunk).2 := by
  cases job with
  | upd32 c => exact ⟨h.updateSlot32 c (feed xxh32 · chunk), rfl⟩
  | upd64 c => exact ⟨h.updateSlot64 c (feed xxh64 · chunk), rfl⟩
  | hash32 work => exact ⟨h, rfl⟩
  | hash64 work => exact ⟨h, rfl⟩

/-- Alike machines consume the same payload bytes. -/
theorem Alike.startPayload (job : Job) (len : Nat) :
    Alike P Q r r' (s.startPayload job len) (s'.startPayload job len) := by
  have hin : Alike P Q r r' (s.inPayload job len) (s'.inPayload job len) := h.setPhase _
  have hstream : (s.inPayload job len).stream = (s'.inPayload job len).stream := hin.stream
  rw [startPayload_eq, startPayload_eq]
  rcases Nat.lt_or_ge (s.inPayload job len).stream.length len with hlt | hle
  · rw [pump_short _ job len rfl hlt, pump_short _ job len rfl (hstream ▸ hlt), hstream]
    obtain ⟨hfed, hjob⟩ := (hin.consume (s'.inPayload job len).stream.length).feedJob job (s'.inPayload job len).stream
    rw [hjob]
    exact hfed.setPhase _
  · rw [pump_enough _ job len rfl hle, pump_enough _ job len rfl (hstream ▸ hle), hstream]
    obtain ⟨hfed, hjob⟩ := (hin.consume len).feedJob job ((s'.inPayload job len).stream.take len)
    rw [hjob]
    exact (hfed.setPhase .idle).complete _

/-! ### The commands -/

theorem Alike.consumeDescriptor : Alike P Q r r' s.consumeDescriptor s'.consumeDescriptor := h.consume 16

/-- INIT32 looks at no slot. -/
theorem Alike.execInit32 (c : Nat) (imm : Word64) :
    OutcomesAlike P Q r r' (execInit32 c imm s) (execInit32 c imm s') := by
  simp only [Machine.execInit32, h.length32]
  split
  · exact h.raise _
  · split
    · exact h.raise _
    · exact ((h.consumeDescriptor.setSlot32 c _).complete _).next

theorem Alike.execInit64 (c : Nat) (imm : Word64) :
    OutcomesAlike P Q r r' (execInit64 c imm s) (execInit64 c imm s') := by
  simp only [Machine.execInit64, h.length64]
  split
  · exact h.raise _
  · exact ((h.consumeDescriptor.setSlot64 c _).complete _).next

theorem Alike.execUpd32 {c : Nat} (hc : P c) (len : BitVec 32) :
    OutcomesAlike P Q r r' (execUpd32 c len s) (execUpd32 c len s') := by
  simp only [Machine.execUpd32, h.slots32 c hc]
  split
  · exact h.raise _
  · split
    · exact h.raise _
    · split
      · exact h.raise _
      · exact ((h.consumeDescriptor.updateSlot32 c _).startPayload _ _).next

theorem Alike.execUpd64 {c : Nat} (hc : Q c) (len : BitVec 32) :
    OutcomesAlike P Q r r' (execUpd64 c len s) (execUpd64 c len s') := by
  simp only [Machine.execUpd64, h.slots64 c hc]
  split
  · exact h.raise _
  · split
    · exact h.raise _
    · split
      · exact h.raise _
      · exact ((h.consumeDescriptor.updateSlot64 c _).startPayload _ _).next

theorem Alike.execDig32 {c : Nat} (hc : P c) : OutcomesAlike P Q r r' (execDig32 c s) (execDig32 c s') := by
  simp only [Machine.execDig32, h.slots32 c hc]
  split
  · exact h.raise _
  · split
    · exact h.raise _
    · exact (h.consumeDescriptor.complete _).next

theorem Alike.execDig64 {c : Nat} (hc : Q c) : OutcomesAlike P Q r r' (execDig64 c s) (execDig64 c s') := by
  simp only [Machine.execDig64, h.slots64 c hc]
  split
  · exact h.raise _
  · split
    · exact h.raise _
    · exact (h.consumeDescriptor.complete _).next

/-- CPY32 reads the source and looks only at the number of the destination. -/
theorem Alike.execCpy32 (d : Nat) {c : Nat} (hc : P c) : OutcomesAlike P Q r r' (execCpy32 d c s) (execCpy32 d c s') := by
  simp only [Machine.execCpy32, h.length32, h.slots32 c hc]
  split
  · exact h.raise _
  · split
    · exact h.raise _
    · split
      · exact h.raise _
      · exact ((h.consumeDescriptor.setSlot32 d _).complete _).next

theorem Alike.execCpy64 (d : Nat) {c : Nat} (hc : Q c) : OutcomesAlike P Q r r' (execCpy64 d c s) (execCpy64 d c s') := by
  simp only [Machine.execCpy64, h.length64, h.slots64 c hc]
  split
  · exact h.raise _
  · split
    · exact h.raise _
    · split
      · exact h.raise _
      · exact ((h.consumeDescriptor.setSlot64 d _).complete _).next

theorem Alike.execHash32 (len : BitVec 32) (imm : Word64) :
    OutcomesAlike P Q r r' (execHash32 len imm s) (execHash32 len imm s') := by
  simp only [Machine.execHash32]
  split
  · exact h.raise _
  · exact (h.consumeDescriptor.startPayload _ _).next

end Alike

/-- A command leaves machines alike that agree on the slots it names. -/
theorem Alike.exec {i : Instr} {r r' : List Response} {s s' : State} (h : Alike (names32 i) (names64 i) r r' s s') :
    OutcomesAlike (names32 i) (names64 i) r r' (exec i s) (exec i s') := by
  cases i with
  | init32 c imm => exact h.execInit32 c imm
  | init64 c imm => exact h.execInit64 c imm
  | upd32 c len => exact h.execUpd32 rfl len
  | upd64 c len => exact h.execUpd64 rfl len
  | dig32 c => exact h.execDig32 rfl
  | dig64 c => exact h.execDig64 rfl
  | cpy32 d c => exact h.execCpy32 d (.inr rfl)
  | cpy64 d c => exact h.execCpy64 d (.inr rfl)
  | hash32 len imm => exact h.execHash32 len imm
  | hash64 len imm => exact (h.consumeDescriptor.startPayload _ _).next
  | info32 => exact (h.consumeDescriptor.complete _).next
  | info64 => exact (h.consumeDescriptor.complete _).next

/-- Settles O33: the two machines are alike for the slots the command names, and every operation keeps them so. -/
theorem resultDependsOnlyOnNamedSlots : Obligations.ResultDependsOnlyOnNamedSlots := by
  unfold Obligations.ResultDependsOnlyOnNamedSlots
  intro i s s' t t' hlen32 hlen64 h32 h64 hstream hidle hidle' ht ht'
  have h : Alike (names32 i) (names64 i) s.responses s'.responses s s' :=
    ⟨hlen32, hlen64, h32, h64, hidle.trans hidle'.symm, hstream, [], by simp, by simp⟩
  have h' := h.exec t t' ht ht'
  exact ⟨h'.phase, h'.stream, h'.responses, h'.slots32, h'.slots64⟩

end Sys2Proof.Machine
end
section
/-! PROOFS. The read primitives as little-endian sums (20_memory.md R51). -/

namespace Sys2Proof.Machine

/-- Within bounds `readU8` is the byte that stands there. -/
theorem getElem?_eq_readU8 {s : Bytes} {p : Nat} (h : p < s.length) : s[p]? = some (readU8 s p) := by
  simp [readU8, h]

/-- The byte at the lowest offset is the least significant one, and the word read from the next offset follows it. Past the
end both sides are 0. -/
theorem leNat_take_drop_succ (n : Nat) (s : Bytes) (p : Nat) :
    leNat ((s.drop p).take (n + 1)) = (readU8 s p).toNat + 2 ^ 8 * leNat ((s.drop (p + 1)).take n) := by
  rcases Nat.lt_or_ge p s.length with hp | hp
  · rw [List.drop_eq_getElem_cons hp, List.take_succ_cons, leNat]
    simp [readU8, hp]
  · have hdrop : s.drop (p + 1) = [] := List.drop_eq_nil_of_le (by omega)
    simp [List.drop_eq_nil_of_le hp, hdrop, readU8, hp, leNat]

/-- A run of `n` bytes from offset `p` is the sum of its bytes with weights `2^(8k)`. -/
theorem leNat_take_drop_eq_sum (n : Nat) (s : Bytes) (p : Nat) :
    leNat ((s.drop p).take n) = ∑ k ∈ Finset.range n, 2 ^ (8 * k) * (readU8 s (p + k)).toNat := by
  induction n generalizing p with
  | zero => simp [leNat]
  | succ n ih =>
    rw [leNat_take_drop_succ, ih, Finset.sum_range_succ', Finset.mul_sum, Nat.add_comm]
    congr 1
    · refine Finset.sum_congr rfl fun k _ => ?_
      have hoffset : p + 1 + k = p + (k + 1) := by omega
      rw [hoffset]
      ring
    · simp

/-- `w / 8` bytes fit in a `w`-bit word, so nothing is cut off. -/
theorem toNat_readLE (w : Nat) (s : Bytes) (p : Nat) :
    (readLE w s p).toNat = leNat ((s.drop p).take (w / 8)) := by
  have hlength : ((s.drop p).take (w / 8)).length ≤ w / 8 := List.length_take_le _ _
  have hfits : leNat ((s.drop p).take (w / 8)) < 2 ^ w :=
    (leNat_lt _).trans_le (Nat.pow_le_pow_right (by decide) (by omega))
  rw [readLE, BitVec.toNat_ofNat, Nat.mod_eq_of_lt hfits]

/-- `readLE` is the little-endian sum of the bytes it reads, for every width. -/
theorem toNat_readLE_eq_sum (w : Nat) (s : Bytes) (p : Nat) :
    (readLE w s p).toNat = ∑ k ∈ Finset.range (w / 8), 2 ^ (8 * k) * (readU8 s (p + k)).toNat := by
  rw [toNat_readLE, leNat_take_drop_eq_sum]

/-- Settles O38: the sum over the bytes read, written out for the widths 32 and 64. -/
theorem readsAreLittleEndianSums : Obligations.ReadsAreLittleEndianSums := by
  unfold Obligations.ReadsAreLittleEndianSums
  intro s p
  refine ⟨getElem?_eq_readU8, fun _ => ?_, fun _ => ?_⟩
  · simp [toNat_readLE_eq_sum, Finset.sum_range_succ]
  · simp [toNat_readLE_eq_sum, Finset.sum_range_succ]

end Sys2Proof.Machine
end
section
/-! PROOFS. A descriptor is its seven fields, and the decoder and the encoder are inverse to each other (30_encoding.md R70,
R71, R73, R74, R80, R81). -/

namespace Sys2Proof.Machine

open Sys2Proof.Laws.DescriptorFields Sys2Proof.Claims

/-! ### The fields of a descriptor -/

section Packed

variable (op : BitVec 8) (w : BitVec 1) (ctx src : Nat) (len : BitVec 32) (imm : Word64)

@[simp] theorem fieldOp_packFields : fieldOp (packFields op w ctx src len imm) = op :=
  (packFields_fields op w ctx src len imm).1
@[simp] theorem fieldW_packFields : fieldW (packFields op w ctx src len imm) = w :=
  (packFields_fields op w ctx src len imm).2.1
@[simp] theorem fieldRsv_packFields : fieldRsv (packFields op w ctx src len imm) = 0#7 :=
  (packFields_fields op w ctx src len imm).2.2.1
@[simp] theorem fieldCtx_packFields : fieldCtx (packFields op w ctx src len imm) = BitVec.ofNat 8 ctx :=
  (packFields_fields op w ctx src len imm).2.2.2.1
@[simp] theorem fieldSrc_packFields : fieldSrc (packFields op w ctx src len imm) = BitVec.ofNat 8 src :=
  (packFields_fields op w ctx src len imm).2.2.2.2.1
@[simp] theorem fieldLen_packFields : fieldLen (packFields op w ctx src len imm) = len :=
  (packFields_fields op w ctx src len imm).2.2.2.2.2.1
@[simp] theorem fieldImm_packFields : fieldImm (packFields op w ctx src len imm) = imm :=
  (packFields_fields op w ctx src len imm).2.2.2.2.2.2

end Packed

/-- The seven fields cover all 128 bits, so they put the descriptor together again. -/
theorem fields_append (d : Descriptor) :
    fieldImm d ++ fieldLen d ++ fieldSrc d ++ fieldCtx d ++ fieldRsv d ++ fieldW d ++ fieldOp d = d := by
  simp only [fieldOp, fieldW, fieldRsv, fieldCtx, fieldSrc, fieldLen, fieldImm,
    BitVec.extractLsb'_append_extractLsb'_eq_extractLsb']
  exact BitVec.extractLsb'_eq_self

/-- A descriptor is the packing of operands exactly when its fields are the operands and `RSV = 0`. -/
theorem packFields_eq_iff {op : BitVec 8} {w : BitVec 1} {ctx src : Nat} {len : BitVec 32} {imm : Word64} {d : Descriptor} :
    packFields op w ctx src len imm = d ↔
      fieldOp d = op ∧ fieldW d = w ∧ fieldRsv d = 0#7 ∧ fieldCtx d = BitVec.ofNat 8 ctx ∧
      fieldSrc d = BitVec.ofNat 8 src ∧ fieldLen d = len ∧ fieldImm d = imm := by
  constructor
  · rintro rfl
    exact packFields_fields op w ctx src len imm
  · rintro ⟨hop, hw, hrsv, hctx, hsrc, hlen, himm⟩
    rw [← fields_append d, hop, hw, hrsv, hctx, hsrc, hlen, himm, packFields]

/-! ### Decoding a descriptor and encoding a command -/

theorem operation_codes :
    opInit = 1#8 ∧ opUpd = 2#8 ∧ opDig = 3#8 ∧ opCpy = 4#8 ∧ opHash = 5#8 ∧ opInfo = 6#8 := by decide

/-- The decoder reads a command off its descriptor: each field it tests holds what the encoder packed there. -/
theorem decodeWord_encodeWord {i : Instr} (h : i.WellFormed) : decodeWord (encodeWord i) = .ok i := by
  cases i <;> simp_all [Instr.WellFormed, encodeWord, decodeWord, whenZero, operation_codes]

/-- `whenZero` answers a command only where the must-be-zero fields are zero: the form of the engine `W` names. -/
theorem whenZero_eq_ok {zero : Bool} {w : BitVec 1} {i32 i64 i : Instr} (h : whenZero zero w i32 i64 = .ok i) :
    zero = true ∧ (w = 0#1 ∧ i = i32 ∨ w = 1#1 ∧ i = i64) := by
  cases zero with
  | false => simp [whenZero] at h
  | true =>
    obtain rfl | rfl := BitVec.eq_zero_or_eq_one w
    · exact ⟨rfl, .inl ⟨rfl, by simpa [whenZero] using h.symm⟩⟩
    · exact ⟨rfl, .inr ⟨rfl, by simpa [whenZero] using h.symm⟩⟩

/-- A descriptor that decodes is the descriptor of its command, whose indices fit since they come from 8-bit fields. -/
theorem encodeWord_of_decodeWord {d : Descriptor} {i : Instr} (h : decodeWord d = .ok i) :
    i.WellFormed ∧ encodeWord i = d := by
  have hctx := (fieldCtx d).isLt
  have hsrc := (fieldSrc d).isLt
  simp only [decodeWord] at h
  split_ifs at h with hrsv hop hop hop hop hop hop
  all_goals
    obtain ⟨hzero, ⟨hw, rfl⟩ | ⟨hw, rfl⟩⟩ := whenZero_eq_ok h
    all_goals simp_all [encodeWord, packFields_eq_iff, Instr.WellFormed]

/-- The first 16 bytes of an encoded command are its descriptor. -/
theorem descriptorOf_encode_append (i : Instr) (rest : Bytes) : descriptorOf (encode i ++ rest) = encodeWord i := by
  have hfits : (encodeWord i).toNat % 2 ^ (8 * 16) = (encodeWord i).toNat := Nat.mod_eq_of_lt (encodeWord i).isLt
  rw [descriptorOf, List.take_left' (encode_length i), encode, leNat_leBytes, hfits, BitVec.ofNat_toNat, BitVec.setWidth_eq]

/-- The first 16 bytes are the bytes of the descriptor they spell. -/
theorem leBytes_descriptorOf {bytes : Bytes} (h : 16 ≤ bytes.length) :
    leBytes 16 (descriptorOf bytes).toNat = bytes.take 16 := by
  have hlength : (bytes.take 16).length = 16 := List.length_take_of_le h
  have hfits : leNat (bytes.take 16) < 2 ^ 128 := by simpa [hlength] using leNat_lt (bytes.take 16)
  have hread := leBytes_leNat (bytes.take 16)
  rwa [hlength, ← Nat.mod_eq_of_lt hfits] at hread

/-- What decodes has the 16 bytes of a descriptor, which decodes to the command, and the rest is what follows it. -/
theorem decode_eq_ok {bytes rest : Bytes} {i : Instr} (h : decode bytes = .ok (i, rest)) :
    16 ≤ bytes.length ∧ decodeWord (descriptorOf bytes) = .ok i ∧ rest = bytes.drop 16 := by
  unfold decode at h
  split at h
  · cases h
  · rename_i hlength
    split at h
    · rename_i j hj
      cases h
      exact ⟨Nat.le_of_not_lt hlength, hj, rfl⟩
    · cases h

/-- Settles O3: the descriptor read back is the one encoded, and its fields are the operands. -/
theorem decodeInvertsEncode : Obligations.DecodeInvertsEncode := by
  unfold Obligations.DecodeInvertsEncode
  intro i rest h
  have hlength : ¬ (encode i ++ rest).length < 16 := by simp
  rw [decode, if_neg hlength, descriptorOf_encode_append, decodeWord_encodeWord h, List.drop_left' (encode_length i)]

/-- Settles O4: the descriptor is the command's, and its bytes are the first 16 of the sequence. -/
theorem encodeInvertsDecode : Obligations.EncodeInvertsDecode := by
  unfold Obligations.EncodeInvertsDecode
  intro bytes rest i h
  obtain ⟨hlength, hword, rfl⟩ := decode_eq_ok h
  obtain ⟨hwf, hencode⟩ := encodeWord_of_decodeWord hword
  exact ⟨hwf, by rw [encode, hencode, leBytes_descriptorOf hlength, List.take_append_drop]⟩

/-! ### Masks and matches (30_encoding.md R74) -/

/-- The mask bits over an operand field: all of them where the field must be zero, none where it is an operand. -/
def operandMask (n : Nat) (mustBeZero : Bool) : BitVec n := if mustBeZero then BitVec.allOnes n else 0#n

/-- The mask of a row: `OP`, `W`, `RSV` and the operand fields that must be zero. -/
def rowMask (ctx src len imm : Bool) : Descriptor :=
  operandMask 64 imm ++ operandMask 32 len ++ operandMask 8 src ++ operandMask 8 ctx ++ BitVec.allOnes 7 ++
    BitVec.allOnes 1 ++ BitVec.allOnes 8

theorem and_operandMask_eq_zero_iff {n : Nat} {x : BitVec n} {mustBeZero : Bool} :
    x &&& operandMask n mustBeZero = 0#n ↔ (mustBeZero = true → x = 0#n) := by
  cases mustBeZero <;> simp [operandMask]

/-- The mask's fields. -/
theorem rowMask_fields (ctx src len imm : Bool) :
    fieldOp (rowMask ctx src len imm) = BitVec.allOnes 8 ∧ fieldW (rowMask ctx src len imm) = BitVec.allOnes 1 ∧
    fieldRsv (rowMask ctx src len imm) = BitVec.allOnes 7 ∧ fieldCtx (rowMask ctx src len imm) = operandMask 8 ctx ∧
    fieldSrc (rowMask ctx src len imm) = operandMask 8 src ∧ fieldLen (rowMask ctx src len imm) = operandMask 32 len ∧
    fieldImm (rowMask ctx src len imm) = operandMask 64 imm := by
  decide +revert

/-- A descriptor matches a row exactly when it has the row's operation and engine, `RSV = 0`, and its must-be-zero operand
fields are zero: the mask passes the other fields by. -/
theorem and_rowMask_eq_iff {d : Descriptor} {ctx src len imm : Bool} {op : BitVec 8} {w : BitVec 1} :
    d &&& rowMask ctx src len imm = packFields op w 0 0 0#32 0#64 ↔
      fieldOp d = op ∧ fieldW d = w ∧ fieldRsv d = 0#7 ∧ (ctx = true → fieldCtx d = 0#8) ∧
      (src = true → fieldSrc d = 0#8) ∧ (len = true → fieldLen d = 0#32) ∧ (imm = true → fieldImm d = 0#64) := by
  obtain ⟨hop, hw, hrsv, hctx, hsrc, hlen, himm⟩ := rowMask_fields ctx src len imm
  rw [eq_comm, packFields_eq_iff]
  simp only [fieldOp, fieldW, fieldRsv, fieldCtx, fieldSrc, fieldLen, fieldImm] at *
  simp only [BitVec.extractLsb'_and, hop, hw, hrsv, hctx, hsrc, hlen, himm, BitVec.and_allOnes,
    and_operandMask_eq_zero_iff]

/-- The mask of a command's row. -/
def maskOf : Instr → Descriptor
  | .init32 _ _ | .init64 _ _ => rowMask false true true false
  | .upd32 _ _ | .upd64 _ _ => rowMask false true false true
  | .dig32 _ | .dig64 _ => rowMask false true true true
  | .cpy32 _ _ | .cpy64 _ _ => rowMask false false true true
  | .hash32 _ _ | .hash64 _ _ => rowMask true true false false
  | .info32 | .info64 => rowMask true true true true

/-- The match of a command's row: its operation and engine. -/
def matchOf (i : Instr) : Descriptor := packFields (opAndEngine i).1 (opAndEngine i).2 0 0 0#32 0#64

/-- The command of the same mnemonic whose operands are a descriptor's fields. -/
def withOperandsOf (d : Descriptor) : Instr → Instr
  | .init32 _ _ => .init32 (fieldCtx d).toNat (fieldImm d)
  | .init64 _ _ => .init64 (fieldCtx d).toNat (fieldImm d)
  | .upd32 _ _ => .upd32 (fieldCtx d).toNat (fieldLen d)
  | .upd64 _ _ => .upd64 (fieldCtx d).toNat (fieldLen d)
  | .dig32 _ => .dig32 (fieldCtx d).toNat
  | .dig64 _ => .dig64 (fieldCtx d).toNat
  | .cpy32 _ _ => .cpy32 (fieldCtx d).toNat (fieldSrc d).toNat
  | .cpy64 _ _ => .cpy64 (fieldCtx d).toNat (fieldSrc d).toNat
  | .hash32 _ _ => .hash32 (fieldLen d) (fieldImm d)
  | .hash64 _ _ => .hash64 (fieldLen d) (fieldImm d)
  | .info32 => .info32
  | .info64 => .info64

/-- The rows are the commands' mnemonics, masks and matches. -/
theorem mem_opcodeRows_iff {row : String × Descriptor × Descriptor} :
    row ∈ opcodeRows ↔ ∃ i : Instr, row = (i.mnemonic, maskOf i, matchOf i) := by
  have hrows : opcodeRows =
      [.init32 0 0, .init64 0 0, .upd32 0 0, .upd64 0 0, .dig32 0, .dig64 0, .cpy32 0 0, .cpy64 0 0, .hash32 0 0,
        .hash64 0 0, .info32, .info64].map fun i => (i.mnemonic, maskOf i, matchOf i) := by decide
  rw [hrows]
  constructor
  · intro h
    obtain ⟨i, _, rfl⟩ := List.mem_map.1 h
    exact ⟨i, rfl⟩
  · rintro ⟨i, rfl⟩
    cases i <;> simp [Instr.mnemonic, maskOf, matchOf, opAndEngine]

/-- The mnemonic determines the row. -/
theorem row_eq_of_mnemonic_eq {row row' : String × Descriptor × Descriptor} (h : row ∈ opcodeRows)
    (h' : row' ∈ opcodeRows) (hname : row.1 = row'.1) : row = row' := by
  have hdistinct : ∀ r ∈ opcodeRows, ∀ r' ∈ opcodeRows, r.1 = r'.1 → r = r' := by decide
  exact hdistinct row h row' h' hname

/-- A command's descriptor matches its row, whatever the operands. -/
theorem encodeWord_and_maskOf (i : Instr) : encodeWord i &&& maskOf i = matchOf i := by
  cases i <;> simp [encodeWord, maskOf, matchOf, opAndEngine, and_rowMask_eq_iff, operation_codes]

/-- A descriptor that matches a row has no bits but the row's and the operands'. -/
theorem encodeWord_withOperandsOf {d : Descriptor} {i : Instr} (h : d &&& maskOf i = matchOf i) :
    encodeWord (withOperandsOf d i) = d := by
  cases i <;>
    simp_all [encodeWord, withOperandsOf, packFields_eq_iff, maskOf, matchOf, opAndEngine, and_rowMask_eq_iff,
      operation_codes]

theorem withOperandsOf_wellFormed (d : Descriptor) (i : Instr) : (withOperandsOf d i).WellFormed := by
  have hctx := (fieldCtx d).isLt
  have hsrc := (fieldSrc d).isLt
  cases i <;> simp_all [withOperandsOf, Instr.WellFormed]

theorem withOperandsOf_mnemonic (d : Descriptor) (i : Instr) : (withOperandsOf d i).mnemonic = i.mnemonic := by
  cases i <;> rfl

theorem decodes_of_matches {d : Descriptor} {row : String × Descriptor × Descriptor} (hrow : row ∈ opcodeRows)
    (h : d &&& row.2.1 = row.2.2) : ∃ i, decodeWord d = .ok i ∧ i.mnemonic = row.1 := by
  obtain ⟨i, rfl⟩ := mem_opcodeRows_iff.1 hrow
  have hdecode := decodeWord_encodeWord (withOperandsOf_wellFormed d i)
  rw [encodeWord_withOperandsOf h] at hdecode
  exact ⟨_, hdecode, withOperandsOf_mnemonic d i⟩

theorem matches_of_decodes {d : Descriptor} {i : Instr} (h : decodeWord d = .ok i) : d &&& maskOf i = matchOf i := by
  obtain ⟨_, rfl⟩ := encodeWord_of_decodeWord h
  exact encodeWord_and_maskOf i

/-- Settles O5: the mask tests just the fields that tell the mnemonic, and `decodeWord` answers one command. -/
theorem descriptorMatchesItsRow : Obligations.DescriptorMatchesItsRow := by
  unfold Obligations.DescriptorMatchesItsRow
  refine ⟨fun d row hrow => ⟨decodes_of_matches hrow, ?_⟩, ?_, ?_⟩
  · rintro ⟨i, hi, hname⟩
    obtain rfl := row_eq_of_mnemonic_eq (mem_opcodeRows_iff.2 ⟨i, rfl⟩) hrow hname
    exact matches_of_decodes hi
  · intro d row row' hrow hrow' h h'
    obtain ⟨i, hi, hname⟩ := decodes_of_matches hrow h
    obtain ⟨j, hj, hname'⟩ := decodes_of_matches hrow' h'
    obtain rfl : i = j := by simpa [hi] using hj
    exact row_eq_of_mnemonic_eq hrow hrow' (hname.symm.trans hname')
  · intro d hnone
    cases hd : decodeWord d with
    | error e => exact ⟨e, rfl⟩
    | ok i => exact absurd (matches_of_decodes hd) (hnone _ (mem_opcodeRows_iff.2 ⟨i, rfl⟩))

/-! ### Decoding from the stream -/

/-- Settles O1: with no reset and in IDLE the step is the command the fetch finds. -/
theorem stepRunsDecodedCommand : Obligations.StepRunsDecodedCommand := by
  unfold Obligations.StepRunsDecodedCommand
  intro s i rest hr hidle hdecode
  have hfetch : s.fetch = .command i := by simp [State.fetch, hdecode]
  simp [step, sequencerStep, hr, hidle, hfetch]

/-- Settles O2: each byte sequence computes to the encoding of its command followed by the rest, which O3 decodes. -/
theorem writtenDescriptorsDecode : Obligations.WrittenDescriptorsDecode := by
  unfold Obligations.WrittenDescriptorsDecode
  exact ⟨decodeInvertsEncode (.init64 1 1#64) [] (by decide), decodeInvertsEncode (.upd32 0 16#32) [0x61] (by decide),
    decodeInvertsEncode (.dig32 1) [] (by decide), decodeInvertsEncode (.cpy64 1 0) [] (by decide),
    decodeInvertsEncode (.hash32 17#32 1#64) [] (by decide), decodeInvertsEncode .info64 [] (by decide)⟩

end Sys2Proof.Machine
end
section
/-! PROOFS. What the assembler accepts can be encoded (30_encoding.md R76, R77, R90, R92). -/

namespace Sys2Proof.Machine

/-! ### Cutting a message into parts -/

theorem cutParts_flatten (limit fuel : Nat) (bytes : Bytes) : (cutParts limit fuel bytes).flatten = bytes := by
  induction fuel generalizing bytes with
  | zero => simp [cutParts]
  | succ fuel ih =>
    rw [cutParts]
    split
    · simp
    · rw [List.flatten_cons, ih, List.take_append_drop]

/-- Each cut takes at least one byte off, so as many cuts as there are bytes are enough. -/
theorem length_le_of_mem_cutParts {limit fuel : Nat} {bytes part : Bytes} (hlimit : 0 < limit)
    (hfuel : bytes.length ≤ fuel) (h : part ∈ cutParts limit fuel bytes) : part.length ≤ limit := by
  induction fuel generalizing bytes with
  | zero =>
    obtain rfl : part = bytes := by simpa [cutParts] using h
    omega
  | succ fuel ih =>
    rw [cutParts] at h
    split at h
    · obtain rfl : part = bytes := by simpa using h
      assumption
    · obtain rfl | h := List.mem_cons.1 h
      · exact List.length_take_le _ _
      · exact ih (by rw [List.length_drop]; omega) h

theorem length_le_of_mem_updlParts {bytes part : Bytes} (h : part ∈ updlParts bytes) : part.length ≤ Config.maxLen :=
  length_le_of_mem_cutParts (by decide) le_rfl h

/-- Settles O51: cutting loses no byte, and no part is longer than the limit it is cut to. -/
theorem updlPartsConcatenate : Obligations.UpdlPartsConcatenate := by
  unfold Obligations.UpdlPartsConcatenate
  exact fun bytes => ⟨cutParts_flatten _ _ bytes, fun _ h => length_le_of_mem_updlParts h⟩

/-! ### Commands that can be encoded -/

/-- The command can be written as a descriptor, followed by a payload of `LEN` bytes. -/
def Command.Encodable (c : Command) : Prop := c.instr.WellFormed ∧ c.payload.length = payloadLength c.instr

/-- The assembler refuses, or makes only commands that can be encoded. -/
def AllEncodable (answer : Option (List Command)) : Prop := ∀ cs, answer = some cs → ∀ c ∈ cs, c.Encodable

/-- `LEN` holds the byte count of a payload that is not too long. -/
theorem toNat_ofNat_length {bytes : Bytes} (h : bytes.length ≤ Config.maxLen) :
    (BitVec.ofNat 32 bytes.length).toNat = bytes.length := by
  have hfits : bytes.length < 2 ^ 32 := Nat.lt_of_le_pred (by decide) h
  rw [BitVec.toNat_ofNat, Nat.mod_eq_of_lt hfits]

theorem upd32Command_encodable {c : Nat} {bytes : Bytes} (hc : c < 2 ^ 8) (h : bytes.length ≤ Config.maxLen) :
    (upd32Command c bytes).Encodable := ⟨hc, (toNat_ofNat_length h).symm⟩

theorem upd64Command_encodable {c : Nat} {bytes : Bytes} (hc : c < 2 ^ 8) (h : bytes.length ≤ Config.maxLen) :
    (upd64Command c bytes).Encodable := ⟨hc, (toNat_ofNat_length h).symm⟩

theorem hash32Command_encodable {seed : Word64} {bytes : Bytes} (h : bytes.length ≤ Config.maxLen) :
    (hash32Command seed bytes).Encodable := ⟨trivial, (toNat_ofNat_length h).symm⟩

theorem hash64Command_encodable {seed : Word64} {bytes : Bytes} (h : bytes.length ≤ Config.maxLen) :
    (hash64Command seed bytes).Encodable := ⟨trivial, (toNat_ofNat_length h).symm⟩

/-! ### What the operand readers answer -/

theorem readIndex_lt {cs rest : List Char} {c : Nat} (h : readIndex cs = some (c, rest)) : c < 2 ^ 8 := by
  obtain ⟨⟨_, _⟩, _, h⟩ := Option.bind_eq_some_iff.1 h
  obtain ⟨hc, h⟩ := Option.ite_none_right_eq_some.1 h
  cases h
  exact hc

theorem readShortPayload_length_le {cs : List Char} {bytes : Bytes} (h : readShortPayload cs = some bytes) :
    bytes.length ≤ Config.maxLen := by
  obtain ⟨_, _, h⟩ := Option.bind_eq_some_iff.1 h
  obtain ⟨hlength, h⟩ := Option.ite_none_right_eq_some.1 h
  cases h
  exact hlength

theorem readOnlyIndex_lt {cs : List Char} {c : Nat} (h : readOnlyIndex cs = some c) : c < 2 ^ 8 := by
  obtain ⟨⟨_, _⟩, hindex, h⟩ := Option.bind_eq_some_iff.1 h
  obtain ⟨_, h⟩ := Option.ite_none_right_eq_some.1 h
  cases h
  exact readIndex_lt hindex

theorem readTwoIndices_lt {cs : List Char} {d c : Nat} (h : readTwoIndices cs = some (d, c)) : d < 2 ^ 8 ∧ c < 2 ^ 8 := by
  obtain ⟨⟨_, _⟩, hindex, h⟩ := Option.bind_eq_some_iff.1 h
  obtain ⟨_, _, h⟩ := Option.bind_eq_some_iff.1 h
  obtain ⟨_, honly, h⟩ := Option.map_eq_some_iff.1 h
  cases h
  exact ⟨readIndex_lt hindex, readOnlyIndex_lt honly⟩

theorem readIndexSeed_lt {cs : List Char} {c : Nat} {seed : Word64} (h : readIndexSeed cs = some (c, seed)) :
    c < 2 ^ 8 := by
  obtain ⟨⟨_, rest⟩, hindex, h⟩ := Option.bind_eq_some_iff.1 h
  cases hend : atEnd rest with
  | true =>
    simp only [hend, if_true] at h
    cases h
    exact readIndex_lt hindex
  | false =>
    simp only [hend, Bool.false_eq_true, if_false] at h
    obtain ⟨_, _, h⟩ := Option.bind_eq_some_iff.1 h
    obtain ⟨⟨_, _⟩, _, h⟩ := Option.bind_eq_some_iff.1 h
    obtain ⟨_, h⟩ := Option.ite_none_right_eq_some.1 h
    cases h
    exact readIndex_lt hindex

section Payload

variable {read : List Char → Option Bytes} {cs : List Char} {c : Nat} {seed : Word64} {bytes : Bytes}

/-- The payload is one that the payload reader answers. -/
theorem readSeedPayload_read (h : readSeedPayload read cs = some (seed, bytes)) : ∃ text, read text = some bytes := by
  unfold readSeedPayload at h
  split at h
  · rename_i hread
    cases h
    exact ⟨_, hread⟩
  · obtain ⟨_, _, h⟩ := Option.bind_eq_some_iff.1 h
    obtain ⟨_, _, h⟩ := Option.bind_eq_some_iff.1 h
    obtain ⟨_, hread, h⟩ := Option.map_eq_some_iff.1 h
    cases h
    exact ⟨_, hread⟩

theorem readIndexPayload_read (h : readIndexPayload read cs = some (c, bytes)) :
    c < 2 ^ 8 ∧ ∃ text, read text = some bytes := by
  obtain ⟨⟨_, _⟩, hindex, h⟩ := Option.bind_eq_some_iff.1 h
  obtain ⟨_, _, h⟩ := Option.bind_eq_some_iff.1 h
  obtain ⟨_, hread, h⟩ := Option.map_eq_some_iff.1 h
  cases h
  exact ⟨readIndex_lt hindex, _, hread⟩

theorem readIndexSeedPayload_read (h : readIndexSeedPayload read cs = some (c, seed, bytes)) :
    c < 2 ^ 8 ∧ ∃ text, read text = some bytes := by
  obtain ⟨⟨_, _⟩, hindex, h⟩ := Option.bind_eq_some_iff.1 h
  obtain ⟨_, _, h⟩ := Option.bind_eq_some_iff.1 h
  obtain ⟨⟨_, _⟩, hread, h⟩ := Option.map_eq_some_iff.1 h
  cases h
  exact ⟨readIndex_lt hindex, readSeedPayload_read hread⟩

end Payload

/-! ### The assembler's branches -/

theorem AllEncodable.none : AllEncodable none := fun _ h => by cases h

theorem AllEncodable.ite {p : Prop} [Decidable p] {a b : Option (List Command)} (ha : AllEncodable a)
    (hb : AllEncodable b) : AllEncodable (if p then a else b) := by
  split
  · exact ha
  · exact hb

/-- Operands that were read are made into commands. -/
theorem AllEncodable.map {α : Type} {answer : Option α} {make : α → List Command}
    (h : ∀ a, answer = some a → ∀ c ∈ make a, c.Encodable) : AllEncodable (answer.map make) := by
  intro cs hcs
  obtain ⟨a, ha, rfl⟩ := Option.map_eq_some_iff.1 hcs
  exact h a ha

/-- Operands that were read are made into one command. -/
theorem AllEncodable.single {α : Type} {answer : Option α} {make : α → Command}
    (h : ∀ a, answer = some a → (make a).Encodable) : AllEncodable (answer.map fun a => [make a]) :=
  .map fun a ha _ hc => List.mem_singleton.1 hc ▸ h a ha

theorem AllEncodable.some {c : Command} (h : c.Encodable) : AllEncodable (some [c]) := by
  rintro _ ⟨⟩
  simpa using h

section Branches

variable (cs : List Char) {command : Nat → Bytes → Command}
  (hcommand : ∀ {c : Nat} {bytes : Bytes}, c < 2 ^ 8 → bytes.length ≤ Config.maxLen → (command c bytes).Encodable)

include hcommand

/-- The branches of `UPD32` and `UPD64`. -/
theorem allEncodable_upd :
    AllEncodable ((readIndexPayload readShortPayload cs).map fun (c, bytes) => [command c bytes]) :=
  .single fun _ h => by
    obtain ⟨hc, _, hread⟩ := readIndexPayload_read h
    exact hcommand hc (readShortPayload_length_le hread)

/-- The branches of `UPDL32` and `UPDL64`: a long payload is cut into parts that one command can carry. -/
theorem allEncodable_updl :
    AllEncodable ((readIndexPayload readPayload cs).map fun (c, bytes) => (updlParts bytes).map (command c)) :=
  .map fun _ h _ hmem => by
    obtain ⟨part, hpart, rfl⟩ := List.mem_map.1 hmem
    exact hcommand (readIndexPayload_read h).1 (length_le_of_mem_updlParts hpart)

/-- The branches of `NEW32` and `NEW64`: a construction, then the payload. -/
theorem allEncodable_new (init : Nat → Word64 → Command)
    (hinit : ∀ {c : Nat} {seed : Word64}, c < 2 ^ 8 → (init c seed).Encodable) :
    AllEncodable ((readIndexSeedPayload readShortPayload cs).map fun (c, seed, bytes) => [init c seed, command c bytes]) :=
  .map fun _ h _ hmem => by
    obtain ⟨hc, _, hread⟩ := readIndexSeedPayload_read h
    obtain rfl | hmem := List.mem_cons.1 hmem
    · exact hinit hc
    · exact List.mem_singleton.1 hmem ▸ hcommand hc (readShortPayload_length_le hread)

end Branches

/-- The branches of `HASH32` and `HASH64`. -/
theorem allEncodable_hash (cs : List Char) {command : Word64 → Bytes → Command}
    (hcommand : ∀ {seed : Word64} {bytes : Bytes}, bytes.length ≤ Config.maxLen → (command seed bytes).Encodable) :
    AllEncodable ((readSeedPayload readShortPayload cs).map fun (seed, bytes) => [command seed bytes]) :=
  .single fun _ h => by
    obtain ⟨_, hread⟩ := readSeedPayload_read h
    exact hcommand (readShortPayload_length_le hread)

/-- Every mnemonic's commands can be encoded; the branches stand in the order of `assembleOperands`. -/
theorem assembleOperands_allEncodable (mnemonic cs : List Char) : AllEncodable (assembleOperands mnemonic cs) := by
  unfold assembleOperands
  refine .ite (.single fun _ h => ⟨readIndexSeed_lt h, rfl⟩) ?_
  refine .ite (.single fun _ h => ⟨readIndexSeed_lt h, rfl⟩) ?_
  refine .ite (allEncodable_upd cs upd32Command_encodable) ?_
  refine .ite (allEncodable_upd cs upd64Command_encodable) ?_
  refine .ite (.single fun _ h => ⟨readOnlyIndex_lt h, rfl⟩) ?_
  refine .ite (.single fun _ h => ⟨readOnlyIndex_lt h, rfl⟩) ?_
  refine .ite (.single fun _ h => ⟨readTwoIndices_lt h, rfl⟩) ?_
  refine .ite (.single fun _ h => ⟨readTwoIndices_lt h, rfl⟩) ?_
  refine .ite (allEncodable_hash cs hash32Command_encodable) ?_
  refine .ite (allEncodable_hash cs hash64Command_encodable) ?_
  refine .ite (.ite (.some ⟨trivial, rfl⟩) .none) ?_
  refine .ite (.ite (.some ⟨trivial, rfl⟩) .none) ?_
  refine .ite (allEncodable_new cs upd32Command_encodable (fun c seed => plain (.init32 c seed))
    fun hc => ⟨hc, rfl⟩) ?_
  refine .ite (allEncodable_new cs upd64Command_encodable (fun c seed => plain (.init64 c seed))
    fun hc => ⟨hc, rfl⟩) ?_
  refine .ite (allEncodable_updl cs upd32Command_encodable) ?_
  exact .ite (allEncodable_updl cs upd64Command_encodable) .none

/-- Settles O52: every mnemonic's operands fit their fields, and a line without a command makes none. -/
theorem assembledCommandsAreWellFormed : Obligations.AssembledCommandsAreWellFormed := by
  unfold Obligations.AssembledCommandsAreWellFormed
  intro line
  exact AllEncodable.ite (fun _ h => by cases h; simp) (assembleOperands_allEncodable _ _)

end Sys2Proof.Machine
end
section
/-! PROOFS. The rotate, and the Block Mixer reading its block group by group (40_block_mixer.md R102, R107 to R110;
20_memory.md R51, R52). -/

namespace Sys2Proof.Machine

/-! ### The rotate -/

section Rotate

variable {w r : Nat}

/-- The two shifts of a rotate have no bit in common: one's bits start at `r`, the other's end there. -/
theorem shiftLeft_and_ushiftRight_eq_zero (x : BitVec w) : x <<< r &&& x >>> (w - r) = 0#w := by
  ext i hi
  rw [BitVec.getElem_and, BitVec.getElem_shiftLeft, BitVec.getElem_ushiftRight, BitVec.getElem_zero]
  rcases Nat.lt_or_ge i r with hlow | hhigh
  · simp [hlow]
  · rw [BitVec.getLsbD_of_ge x _ (by omega), Bool.and_false]

/-- The rotate is a sum: what leaves at the top comes in at the bottom, without a carry (40_block_mixer.md R102). -/
theorem toNat_rotl (x : BitVec w) (r : Nat) :
    (rotl x r).toNat = x.toNat * 2 ^ r % 2 ^ w + x.toNat / 2 ^ (w - r) := by
  have hdisjoint := shiftLeft_and_ushiftRight_eq_zero (r := r) x
  rw [rotl, ← BitVec.add_eq_or_of_and_eq_zero _ _ hdisjoint, BitVec.toNat_add_of_and_eq_zero hdisjoint,
    BitVec.toNat_shiftLeft, BitVec.toNat_ushiftRight, Nat.shiftLeft_eq, Nat.shiftRight_eq_div_pow]

/-- Within R102's bounds `rotl` is the library's rotate. -/
theorem rotl_eq_rotateLeft (x : BitVec w) (hr : r < w) : rotl x r = x.rotateLeft r := by
  rw [BitVec.rotateLeft_def, Nat.mod_eq_of_lt hr, rotl]

/-- Bit `i` moves to position `i + r`, or wraps around to the bits below `r`. -/
theorem getLsbD_rotl_add_mod (x : BitVec w) (hr : r < w) {i : Nat} (hi : i < w) :
    (rotl x r).getLsbD ((i + r) % w) = x.getLsbD i := by
  rw [rotl_eq_rotateLeft x hr, BitVec.getLsbD_rotateLeft_of_le hr]
  rcases Nat.lt_or_ge (i + r) w with hstays | hwraps
  · have hposition : (i + r) % w = i + r := Nat.mod_eq_of_lt hstays
    simp [hposition, hstays]
  · have hposition : (i + r) % w = i + r - w := by
      rw [Nat.mod_eq_sub_mod hwraps, Nat.mod_eq_of_lt (by omega)]
    have hlow : i + r - w < r := by omega
    have hsource : w - r + (i + r - w) = i := by omega
    simp [hposition, hlow, hsource]

end Rotate

/-- Settles O37: the rotate is the sum of its two disjoint shifts, and moves each bit around the circle. -/
theorem rotateIsCircular : Obligations.RotateIsCircular := by
  unfold Obligations.RotateIsCircular
  intro w r x _ hr
  exact ⟨toNat_rotl x r, fun _ hi => getLsbD_rotl_add_mod x hr hi⟩

/-! ### The constants of the round and of the construction -/

/-- Settles O39: the definitions, read at the two engines. -/
theorem roundAndConstructionUseTheConstants : Obligations.RoundAndConstructionUseTheConstants := by
  unfold Obligations.RoundAndConstructionUseTheConstants
  exact ⟨fun _ _ => rfl, fun _ _ => rfl, fun _ => rfl, fun _ => rfl⟩

/-! ### The words of a block -/

section Words

variable {w : Nat}

/-- A word that stands in `a` is read alike when bytes follow `a`. -/
theorem readLE_append_left {a : Bytes} (b : Bytes) {p : Nat} (h : p + w / 8 ≤ a.length) :
    readLE w (a ++ b) p = readLE w a p := by
  rw [readLE, readLE, List.drop_append_of_le_length (by omega),
    List.take_append_of_le_length (by rw [List.length_drop]; omega)]

/-- Offset 0 of `b` stands in `a ++ b` right after `a`. -/
theorem readLE_append_right {a : Bytes} (b : Bytes) {p : Nat} (h : a.length = p) :
    readLE w (a ++ b) p = readLE w b 0 := by
  rw [readLE, readLE, List.drop_left' h, List.drop_zero]

/-- Word `i` of a block is the word at the front of the group that `i` whole groups precede, whatever follows it. -/
theorem blockWord_group {before group : Bytes} (after : Bytes) {i : Nat} (hbefore : before.length = w / 8 * i)
    (hgroup : group.length = w / 8) : blockWord w (before ++ group ++ after) i = readLE w group 0 := by
  rw [blockWord, List.append_assoc, readLE_append_right _ hbefore, readLE_append_left after (by omega)]

/-- Each lane is mixed with the word of its own group, for any engine (40_block_mixer.md R109, R110). -/
theorem mix_groups (E : Engine w) (v : Lanes w) {b0 b1 b2 b3 : Bytes} (h0 : b0.length = w / 8) (h1 : b1.length = w / 8)
    (h2 : b2.length = w / 8) (h3 : b3.length = w / 8) :
    mix E v (b0 ++ b1 ++ b2 ++ b3) =
      ⟨round E v.lane0 (readLE w b0 0), round E v.lane1 (readLE w b1 0),
        round E v.lane2 (readLE w b2 0), round E v.lane3 (readLE w b3 0)⟩ := by
  have hword0 : blockWord w (b0 ++ b1 ++ b2 ++ b3) 0 = readLE w b0 0 := by
    simpa using blockWord_group (before := []) (b1 ++ b2 ++ b3) (i := 0) rfl h0
  have hword1 : blockWord w (b0 ++ b1 ++ b2 ++ b3) 1 = readLE w b1 0 := by
    simpa using blockWord_group (before := b0) (b2 ++ b3) (i := 1) (by omega) h1
  have hword2 : blockWord w (b0 ++ b1 ++ b2 ++ b3) 2 = readLE w b2 0 :=
    blockWord_group b3 (by rw [List.length_append]; omega) h2
  have hword3 : blockWord w (b0 ++ b1 ++ b2 ++ b3) 3 = readLE w b3 0 := by
    simpa using blockWord_group (before := b0 ++ b1 ++ b2) [] (i := 3) (by simp only [List.length_append]; omega) h3
  rw [mix, hword0, hword1, hword2, hword3]

end Words

/-- Settles O40: the groups of 4 and of 8 bytes are the words of the two engines. -/
theorem mixedLanesAreIndependent : Obligations.MixedLanesAreIndependent := by
  unfold Obligations.MixedLanesAreIndependent
  exact ⟨fun v _ _ _ _ => mix_groups xxh32 v, fun v _ _ _ _ => mix_groups xxh64 v⟩

end Sys2Proof.Machine
end

section
/-! PROOFS. `fold` block by block, `absorb`, its chunking invariance, and the byte-serial machine (41_hash_state.md R125,
R130, R133). -/

namespace Sys2Proof.Machine

variable {w : Nat} {E : Engine w}

/-! ### `fold` -/

/-- With a full block there, `fold` takes it from the front. -/
theorem fold_of_le (hE : 0 < E.block) (v : Lanes w) {a : Bytes} (h : E.block ≤ a.length) :
    fold E v a = fold E (mix E v (a.take E.block)) (a.drop E.block) := by
  have hcount : a.length / E.block = (a.drop E.block).length / E.block + 1 := by
    rw [List.length_drop, Nat.div_eq_sub_div hE h]
  rw [fold, hcount, foldBlocks, fold]

/-- With less than a block there, `fold` does nothing. -/
theorem fold_of_lt (v : Lanes w) {a : Bytes} (h : a.length < E.block) : fold E v a = (v, a) := by
  rw [fold, Nat.div_eq_of_lt h, foldBlocks]

/-- Settles O41: `fold` by whether a full block is there, `absorb` field by field. -/
theorem absorbFoldsFullBlocksFromTheFront : Obligations.AbsorbFoldsFullBlocksFromTheFront := by
  unfold Obligations.AbsorbFoldsFullBlocksFromTheFront
  intro w E hE
  refine ⟨fun v a => ?_, fun st bytes => ⟨rfl, rfl, rfl, ?_, ?_, fun hlt => ?_⟩⟩
  · split
    next hle => exact fold_of_le hE v hle
    next hlt => exact fold_of_lt v (Nat.lt_of_not_le hlt)
  · rw [fold, List.length_append]
  · rw [absorb_buf, fold_snd_length, List.length_append]
  · rw [absorb_totalLength, BitVec.toNat_add, BitVec.toNat_ofNat, Nat.add_mod_mod, Nat.mod_eq_of_lt hlt]

/-! ### Chunking invariance -/

/-- Absorbing in two parts is absorbing at once (41_hash_state.md R133). -/
theorem absorb_absorb (hE : 0 < E.block) (st : HashState w) (x y : Bytes) :
    absorb E (absorb E st x) y = absorb E st (x ++ y) := by
  simp only [absorb, feed_advance, feed_feed E hE, advance_advance, List.length_append, BitVec.ofNat_add]

/-- A Hash State with less than a block pending has no block to fold. -/
theorem feed_nil {st : HashState w} (h : st.buf.length < E.block) : feed E st [] = st := by
  rw [feed, List.append_nil, fold_of_lt st.v h]

/-- Settles O42: feeding in two parts is feeding at once, and the two lengths add up. -/
theorem absorbIsChunkingInvariant : Obligations.AbsorbIsChunkingInvariant := by
  unfold Obligations.AbsorbIsChunkingInvariant
  intro w E st hbuf
  refine ⟨absorb_absorb (Nat.zero_lt_of_lt hbuf) st, ?_⟩
  rw [absorb, List.length_nil, advance_zero, feed_nil hbuf]

/-! ### The byte-serial machine -/

/-- Feeding leaves less than a block pending. -/
theorem feed_buf_length_lt (hE : 0 < E.block) (st : HashState w) (bytes : Bytes) :
    (feed E st bytes).buf.length < E.block := by
  rw [feed_buf, fold_snd_length]
  exact Nat.mod_lt _ hE

/-- Pushing a byte is feeding that byte: it fills the block exactly, or leaves it short. -/
theorem pushByte_eq_feed {st : HashState w} (h : st.buf.length < E.block) (b : Byte) : pushByte E st b = feed E st [b] := by
  have hlen : (st.buf ++ [b]).length ≤ E.block := by simpa using h
  rw [pushByte, feed]
  split
  next hfull =>
    rw [fold_of_le (Nat.zero_lt_of_lt h) st.v hfull.ge, List.take_of_length_le hlen, List.drop_of_length_le hlen,
      fold_of_lt (a := []) _ (Nat.zero_lt_of_lt h)]
  next hshort => rw [fold_of_lt st.v (Nat.lt_of_le_of_ne hlen hshort)]

/-- Pushing bytes one at a time is feeding them at once. -/
theorem foldl_pushByte_eq_feed (bytes : Bytes) {st : HashState w} (h : st.buf.length < E.block) :
    bytes.foldl (pushByte E) st = feed E st bytes := by
  induction bytes generalizing st with
  | nil => exact (feed_nil h).symm
  | cons b bytes ih =>
    have hE := Nat.zero_lt_of_lt h
    rw [List.foldl_cons, pushByte_eq_feed h, ih (feed_buf_length_lt hE st [b]), feed_feed E hE, List.singleton_append]

/-- Settles O43: `absorb` is feeding after advancing, and advancing leaves the pending bytes alone. -/
theorem byteSerialMachineEqualsAbsorb : Obligations.ByteSerialMachineEqualsAbsorb := by
  unfold Obligations.ByteSerialMachineEqualsAbsorb
  intro w E st payload hbuf
  exact foldl_pushByte_eq_feed payload hbuf

end Sys2Proof.Machine
end

section
/-! PROOFS. INIT and UPD (41_hash_state.md R121, R122, R124, R126), and how the payload of a command is consumed (R130 to
R132). -/

namespace Sys2Proof.Machine

open Sys2Proof.Claims

/-! ### Consuming a payload -/

/-- `s` at another point of the command stream: what a pump changes besides the slot and the response. -/
def State.movedTo (s : State) (phase : Phase) (pos : Nat) (stream : Bytes) : State :=
  { s with phase := phase, pos := pos, stream := stream }

@[simp] theorem State.movedTo_stream (s : State) (phase : Phase) (pos : Nat) (stream : Bytes) :
    (s.movedTo phase pos stream).stream = stream := rfl

theorem consume_movedTo (s : State) (phase : Phase) (pos : Nat) (stream : Bytes) (n : Nat) :
    (s.movedTo phase pos stream).consume n = s.movedTo phase (pos + n) (stream.drop n) := rfl

/-- Feeding a job looks at the slots alone. -/
theorem feedJob_movedTo (s : State) (job : Job) (chunk : Bytes) (phase : Phase) (pos : Nat) (stream : Bytes) :
    (s.movedTo phase pos stream).feedJob job chunk =
      ((s.feedJob job chunk).1.movedTo phase pos stream, (s.feedJob job chunk).2) := by
  cases job <;> rfl

/-- Feeding a job in two parts is feeding it at once. -/
theorem feedJob_feedJob (s : State) (job : Job) (a b : Bytes) :
    (s.feedJob job a).1.feedJob (s.feedJob job a).2 b = s.feedJob job (a ++ b) := by
  cases job with
  | upd32 c =>
    simp [State.feedJob, State.updateSlot32, List.modify_modify_eq, Function.comp_def, feed_feed xxh32 xxh32_block_pos]
  | upd64 c =>
    simp [State.feedJob, State.updateSlot64, List.modify_modify_eq, Function.comp_def, feed_feed xxh64 xxh64_block_pos]
  | hash32 work => simp [State.feedJob, feed_feed xxh32 xxh32_block_pos]
  | hash64 work => simp [State.feedJob, feed_feed xxh64 xxh64_block_pos]

/-- With its whole payload there, a command is fed it and completes. -/
theorem pump_movedTo_complete (s : State) (job : Job) (pos : Nat) {remaining : Nat} {payload : Bytes} (rest : Bytes)
    (hlen : payload.length = remaining) :
    (s.movedTo (.payload job remaining) pos (payload ++ rest)).pump =
      ((s.feedJob job payload).1.movedTo .idle (pos + remaining) rest).complete (jobValue (s.feedJob job payload).2) := by
  subst hlen
  rw [pump_enough _ job _ rfl (by simp), consume_movedTo, feedJob_movedTo, State.movedTo_stream, List.take_left,
    List.drop_left]
  rfl

/-- With part of its payload there, a command is fed that part and waits for the rest. -/
theorem pump_movedTo_waiting (s : State) (job : Job) (pos : Nat) {remaining : Nat} {stream : Bytes}
    (hlen : stream.length < remaining) :
    (s.movedTo (.payload job remaining) pos stream).pump =
      (s.feedJob job stream).1.movedTo (.payload (s.feedJob job stream).2 (remaining - stream.length))
        (pos + stream.length) [] := by
  rw [pump_short _ job _ rfl hlen, consume_movedTo, feedJob_movedTo, State.movedTo_stream, List.drop_length]
  rfl

/-- Settles O44: whether or not the later bytes are enough, the job is fed the same bytes in the end. -/
theorem payloadSplitDoesNotMatter : Obligations.PayloadSplitDoesNotMatter := by
  unfold Obligations.PayloadSplitDoesNotMatter
  intro s job remaining later hp hshort
  have hself : s.movedTo (.payload job remaining) s.pos s.stream = s := by rw [← hp]; rfl
  have hsupplied : s.supply later = s.movedTo (.payload job remaining) s.pos (s.stream ++ later) := by rw [← hp]; rfl
  have hpumped : s.pump.supply later = (s.feedJob job s.stream).1.movedTo
      (.payload (s.feedJob job s.stream).2 (remaining - s.stream.length)) (s.pos + s.stream.length) later := by
    have hwaits := pump_movedTo_waiting s job s.pos hshort
    rw [hself] at hwaits
    rw [hwaits]
    rfl
  rw [hsupplied, hpumped]
  rcases Nat.lt_or_ge later.length (remaining - s.stream.length) with hfew | henough
  · rw [pump_movedTo_waiting _ _ _ hfew, pump_movedTo_waiting s job s.pos (by rw [List.length_append]; omega),
      feedJob_feedJob, List.length_append, Nat.sub_sub, Nat.add_assoc]
  · obtain ⟨payload, rest, rfl, hlen⟩ : ∃ payload rest, later = payload ++ rest ∧
        payload.length = remaining - s.stream.length :=
      ⟨_, _, (List.take_append_drop _ later).symm, List.length_take_of_le henough⟩
    rw [pump_movedTo_complete _ _ _ rest hlen, ← List.append_assoc,
      pump_movedTo_complete s job s.pos rest (by rw [List.length_append]; omega), feedJob_feedJob, Nat.add_assoc,
      Nat.add_sub_cancel' hshort.le]

/-! ### INIT -/

/-- Settles O6: the three ways through INIT32, by the slot index and the seed operand. -/
theorem init32ConstructsOrFaults : Obligations.Init32ConstructsOrFaults := by
  unfold Obligations.Init32ConstructsOrFaults
  intro c imm s
  simp only [exec, execInit32, seedOperand32, raise_eq]
  refine ⟨fun hc => ?_, fun hc himm => ?_, fun hc himm => ?_⟩
  · rw [if_pos hc]
    rfl
  · rw [if_neg (Nat.not_le_of_lt hc), if_neg himm]
    rfl
  · rw [if_neg (Nat.not_le_of_lt hc), if_pos himm]
    rfl

/-- Settles O7: the two ways through INIT64, by the slot index. -/
theorem init64ConstructsOrFaults : Obligations.Init64ConstructsOrFaults := by
  unfold Obligations.Init64ConstructsOrFaults
  intro c imm s
  simp only [exec, execInit64, seedOperand64, raise_eq]
  refine ⟨fun hc => ?_, fun hc => ?_⟩
  · rw [if_pos hc]
    rfl
  · rw [if_neg (Nat.not_le_of_lt hc)]
    rfl

/-! ### UPD -/

/-- Changing the Hash State of a slot twice is writing the slot that the two changes give. -/
theorem modify_modify_eq_set {w : Nat} {slots : List (Slot w)} {c : Nat} {valid : Bool} {st : HashState w}
    (h : slots[c]? = some ⟨valid, st⟩) (f g : HashState w → HashState w) :
    ((slots.modify c fun slot => { slot with st := f slot.st }).modify c fun slot => { slot with st := g slot.st }) =
      slots.set c ⟨valid, g (f st)⟩ := by
  rw [List.modify_modify_eq, List.modify_eq_set_getElem?, h]
  rfl

section Upd

variable {s : State} {c : Nat} {len : BitVec 32}

theorem exec_upd32_badContext (h : s.ctx32.length ≤ c) :
    exec (.upd32 c len) s = .next (s.takeFault .badContext) := by
  simp [exec, execUpd32, List.getElem?_eq_none h]

theorem exec_upd32_contextInvalid {st : HashState 32} (h : s.ctx32[c]? = some ⟨false, st⟩) :
    exec (.upd32 c len) s = .next (s.takeFault .contextInvalid) := by
  simp [exec, execUpd32, h]

theorem exec_upd32_lengthOverflow {st : HashState 32} (h : s.ctx32[c]? = some ⟨true, st⟩)
    (ho : 2 ^ 64 ≤ st.totalLength.toNat + len.toNat) :
    exec (.upd32 c len) s = .next (s.takeFault .lengthOverflow) := by
  simp [exec, execUpd32, h, (lengthOverflows_iff _ _).mpr ho]

/-- UPD32 accepted: the counter is advanced, then the payload bytes there are consumed (41_hash_state.md R130). -/
theorem exec_upd32_accepted {st : HashState 32} (h : s.ctx32[c]? = some ⟨true, st⟩)
    (ho : st.totalLength.toNat + len.toNat < 2 ^ 64) :
    exec (.upd32 c len) s = .next
      ((s.updateSlot32 c (advance · (len.setWidth 64))).movedTo (.payload (.upd32 c) len.toNat) (s.pos + 16)
        (s.stream.drop 16)).pump := by
  have hno : lengthOverflows st.totalLength len = false := by
    rw [Bool.eq_false_iff, Ne, lengthOverflows_iff]
    omega
  simp only [exec, execUpd32, h, hno, if_false, Bool.false_eq_true, reduceCtorEq]
  rfl

/-- A valid slot advanced and then fed is written with the two done to its Hash State. -/
theorem feedJob_updateSlot32 {st : HashState 32} (h : s.ctx32[c]? = some ⟨true, st⟩) (n : Word64) (chunk : Bytes) :
    (s.updateSlot32 c (advance · n)).feedJob (.upd32 c) chunk =
      (s.setSlot32 c ⟨true, feed xxh32 (advance st n) chunk⟩, .upd32 c) := by
  rw [State.setSlot32, ← modify_modify_eq_set h (advance · n) (feed xxh32 · chunk)]
  rfl

/-- UPD32 with its payload there (41_hash_state.md R124). -/
theorem exec_upd32_complete {st : HashState 32} {payload rest : Bytes} (h : s.ctx32[c]? = some ⟨true, st⟩)
    (ho : st.totalLength.toNat + len.toNat < 2 ^ 64) (hstream : s.stream.drop 16 = payload ++ rest)
    (hlen : payload.length = len.toNat) :
    exec (.upd32 c len) s = .next (respondedAfter
      { s with ctx32 := s.ctx32.set c ⟨true, absorb xxh32 st payload⟩ } len.toNat rest 0#64) := by
  rw [exec_upd32_accepted h ho, hstream, pump_movedTo_complete _ _ _ rest hlen, feedJob_updateSlot32 h, absorb,
    hlen, BitVec.ofNat_toNat, Nat.add_assoc]
  rfl

/-- UPD32 with part of its payload there (41_hash_state.md R131). -/
theorem exec_upd32_waiting {st : HashState 32} (h : s.ctx32[c]? = some ⟨true, st⟩)
    (ho : st.totalLength.toNat + len.toNat < 2 ^ 64) (hshort : (s.stream.drop 16).length < len.toNat) :
    exec (.upd32 c len) s = .next
      { s with
        ctx32 := s.ctx32.set c ⟨true, feed xxh32 (advance st (len.setWidth 64)) (s.stream.drop 16)⟩
        phase := .payload (.upd32 c) (len.toNat - (s.stream.drop 16).length)
        pos := s.pos + 16 + (s.stream.drop 16).length
        stream := [] } := by
  rw [exec_upd32_accepted h ho, pump_movedTo_waiting _ _ _ hshort, feedJob_updateSlot32 h]
  rfl

theorem exec_upd64_badContext (h : s.ctx64.length ≤ c) :
    exec (.upd64 c len) s = .next (s.takeFault .badContext) := by
  simp [exec, execUpd64, List.getElem?_eq_none h]

theorem exec_upd64_contextInvalid {st : HashState 64} (h : s.ctx64[c]? = some ⟨false, st⟩) :
    exec (.upd64 c len) s = .next (s.takeFault .contextInvalid) := by
  simp [exec, execUpd64, h]

theorem exec_upd64_lengthOverflow {st : HashState 64} (h : s.ctx64[c]? = some ⟨true, st⟩)
    (ho : 2 ^ 64 ≤ st.totalLength.toNat + len.toNat) :
    exec (.upd64 c len) s = .next (s.takeFault .lengthOverflow) := by
  simp [exec, execUpd64, h, (lengthOverflows_iff _ _).mpr ho]

/-- UPD64 accepted: the counter is advanced, then the payload bytes there are consumed (41_hash_state.md R130). -/
theorem exec_upd64_accepted {st : HashState 64} (h : s.ctx64[c]? = some ⟨true, st⟩)
    (ho : st.totalLength.toNat + len.toNat < 2 ^ 64) :
    exec (.upd64 c len) s = .next
      ((s.updateSlot64 c (advance · (len.setWidth 64))).movedTo (.payload (.upd64 c) len.toNat) (s.pos + 16)
        (s.stream.drop 16)).pump := by
  have hno : lengthOverflows st.totalLength len = false := by
    rw [Bool.eq_false_iff, Ne, lengthOverflows_iff]
    omega
  simp only [exec, execUpd64, h, hno, if_false, Bool.false_eq_true, reduceCtorEq]
  rfl

/-- A valid slot advanced and then fed is written with the two done to its Hash State. -/
theorem feedJob_updateSlot64 {st : HashState 64} (h : s.ctx64[c]? = some ⟨true, st⟩) (n : Word64) (chunk : Bytes) :
    (s.updateSlot64 c (advance · n)).feedJob (.upd64 c) chunk =
      (s.setSlot64 c ⟨true, feed xxh64 (advance st n) chunk⟩, .upd64 c) := by
  rw [State.setSlot64, ← modify_modify_eq_set h (advance · n) (feed xxh64 · chunk)]
  rfl

/-- UPD64 with its payload there (41_hash_state.md R126). -/
theorem exec_upd64_complete {st : HashState 64} {payload rest : Bytes} (h : s.ctx64[c]? = some ⟨true, st⟩)
    (ho : st.totalLength.toNat + len.toNat < 2 ^ 64) (hstream : s.stream.drop 16 = payload ++ rest)
    (hlen : payload.length = len.toNat) :
    exec (.upd64 c len) s = .next (respondedAfter
      { s with ctx64 := s.ctx64.set c ⟨true, absorb xxh64 st payload⟩ } len.toNat rest 0#64) := by
  rw [exec_upd64_accepted h ho, hstream, pump_movedTo_complete _ _ _ rest hlen, feedJob_updateSlot64 h, absorb,
    hlen, BitVec.ofNat_toNat, Nat.add_assoc]
  rfl

/-- UPD64 with part of its payload there (41_hash_state.md R131). -/
theorem exec_upd64_waiting {st : HashState 64} (h : s.ctx64[c]? = some ⟨true, st⟩)
    (ho : st.totalLength.toNat + len.toNat < 2 ^ 64) (hshort : (s.stream.drop 16).length < len.toNat) :
    exec (.upd64 c len) s = .next
      { s with
        ctx64 := s.ctx64.set c ⟨true, feed xxh64 (advance st (len.setWidth 64)) (s.stream.drop 16)⟩
        phase := .payload (.upd64 c) (len.toNat - (s.stream.drop 16).length)
        pos := s.pos + 16 + (s.stream.drop 16).length
        stream := [] } := by
  rw [exec_upd64_accepted h ho, pump_movedTo_waiting _ _ _ hshort, feedJob_updateSlot64 h]
  rfl

end Upd

/-- Settles O8: the three faults, and UPD32 with its payload there. -/
theorem upd32AbsorbsOrFaults : Obligations.Upd32AbsorbsOrFaults := by
  unfold Obligations.Upd32AbsorbsOrFaults
  intro c len s
  exact ⟨exec_upd32_badContext, fun _ => exec_upd32_contextInvalid, fun _ => exec_upd32_lengthOverflow,
    fun _ _ _ => exec_upd32_complete⟩

/-- Settles O9: the three faults, and UPD64 with its payload there. -/
theorem upd64AbsorbsOrFaults : Obligations.Upd64AbsorbsOrFaults := by
  unfold Obligations.Upd64AbsorbsOrFaults
  intro c len s
  exact ⟨exec_upd64_badContext, fun _ => exec_upd64_contextInvalid, fun _ => exec_upd64_lengthOverflow,
    fun _ _ _ => exec_upd64_complete⟩

/-- Settles O10: advancing the counter and feeding commute, so the slot counts all of `LEN` at once. -/
theorem updWaitsForItsPayload : Obligations.UpdWaitsForItsPayload := by
  unfold Obligations.UpdWaitsForItsPayload
  intro c len s hshort
  exact ⟨fun _ hs ho => exec_upd32_waiting hs ho hshort, fun _ hs ho => exec_upd64_waiting hs ho hshort⟩

end Sys2Proof.Machine
end

section
/-! PROOFS. DIG32 and DIG64: what they answer, and that the answer depends on nothing but the slot they name
(42_finalizer.md R161, R164, R165). -/

namespace Sys2Proof.Machine

open Sys2Proof.Claims

/-! ### The answer of a command that only reads -/

/-- `s` after a command that takes a fault, or responds with a value and changes no slot. -/
def State.answer (s : State) : Except Cause Word64 → State
  | .error e => s.takeFault e
  | .ok value => s.consumeDescriptor.complete value

/-- The response such a command gives. -/
def answerResponse : Except Cause Word64 → Response
  | .error e => ⟨causeCode e, 0#64⟩
  | .ok value => ⟨0x00#8, value⟩

section Answer

variable (s : State) (answer : Except Cause Word64)

@[simp] theorem State.answer_ctx32 : (s.answer answer).ctx32 = s.ctx32 := by cases answer <;> rfl
@[simp] theorem State.answer_ctx64 : (s.answer answer).ctx64 = s.ctx64 := by cases answer <;> rfl
@[simp] theorem State.answer_responses : (s.answer answer).responses = s.responses ++ [answerResponse answer] := by
  cases answer <;> rfl

end Answer

/-! ### DIG -/

/-- What DIG answers to the slot it names: BadContext, ContextInvalid, or the digest (42_finalizer.md R161). -/
def digAnswer {w : Nat} (digest : HashState w → Word64) : Option (Slot w) → Except Cause Word64
  | none => .error .badContext
  | some ⟨false, _⟩ => .error .contextInvalid
  | some ⟨true, st⟩ => .ok (digest st)

theorem exec_dig32 (c : Nat) (s : State) :
    exec (.dig32 c) s = .next (s.answer (digAnswer (fun st => (final32 st).setWidth 64) s.ctx32[c]?)) := by
  simp only [exec, execDig32]
  cases s.ctx32[c]? with
  | none => rfl
  | some slot => obtain ⟨_ | _, st⟩ := slot <;> rfl

theorem exec_dig64 (c : Nat) (s : State) :
    exec (.dig64 c) s = .next (s.answer (digAnswer final64 s.ctx64[c]?)) := by
  simp only [exec, execDig64]
  cases s.ctx64[c]? with
  | none => rfl
  | some slot => obtain ⟨_ | _, st⟩ := slot <;> rfl

/-- Settles O11: the slot is out of range, not valid, or valid. -/
theorem dig32RespondsWithDigestOrFaults : Obligations.Dig32RespondsWithDigestOrFaults := by
  unfold Obligations.Dig32RespondsWithDigestOrFaults
  intro c s
  rw [exec_dig32]
  exact ⟨fun hc => by rw [List.getElem?_eq_none hc]; rfl, fun _ hst => by rw [hst]; rfl, fun _ hst => by rw [hst]; rfl⟩

/-- Settles O12: the slot is out of range, not valid, or valid. -/
theorem dig64RespondsWithDigestOrFaults : Obligations.Dig64RespondsWithDigestOrFaults := by
  unfold Obligations.Dig64RespondsWithDigestOrFaults
  intro c s
  rw [exec_dig64]
  exact ⟨fun hc => by rw [List.getElem?_eq_none hc]; rfl, fun _ hst => by rw [hst]; rfl, fun _ hst => by rw [hst]; rfl⟩

/-- One answer serves every state with these slots, whatever its phase, stream and counters. -/
theorem exec_dig_answer {i : Instr} {c : Nat} (hi : i = .dig32 c ∨ i = .dig64 c) (s : State) :
    ∃ answer, ∀ t : State, t.ctx32 = s.ctx32 → t.ctx64 = s.ctx64 → exec i t = .next (t.answer answer) := by
  obtain rfl | rfl := hi
  · exact ⟨_, fun t h32 _ => by rw [exec_dig32, h32]⟩
  · exact ⟨_, fun t _ h64 => by rw [exec_dig64, h64]⟩

/-- Settles O13: DIG leaves the slots that decide its answer, so the second DIG answers as the first did. -/
theorem digIsReadOnlyAndRepeatable : Obligations.DigIsReadOnlyAndRepeatable := by
  unfold Obligations.DigIsReadOnlyAndRepeatable
  intro i c s t hi ht
  obtain ⟨answer, hanswer⟩ := exec_dig_answer hi s
  obtain rfl : s.answer answer = t := by simpa [hanswer s rfl rfl] using ht
  have hagain : exec i (s.answer answer) = .next ((s.answer answer).answer answer) := hanswer _ (by simp) (by simp)
  exact ⟨by simp, by simp, answerResponse answer, _, by simp, hagain, by simp⟩

end Sys2Proof.Machine
end

section
/-! PROOFS. The Finalizer: the seeding and the avalanche with their constants, and the tail as its loop (42_finalizer.md R140
to R160). -/

namespace Sys2Proof.Machine

/-! ### The tail -/

section Tail

variable {w : Nat}

/-- Tail steps that start `d` bytes further on are those of a step function that reads `d` bytes further on. -/
theorem tailSteps_add {size d : Nat} {step step' : BitVec w → Nat → BitVec w} (h : ∀ x p, step x (d + p) = step' x p)
    (count p : Nat) (x : BitVec w) : tailSteps size step count (d + p) x = tailSteps size step' count p x := by
  induction count generalizing p x with
  | zero => rfl
  | succ count ih => rw [tailSteps, tailSteps, h, Nat.add_assoc, ih]

/-- The first of some tail steps is taken, and the others read what it leaves. -/
theorem tailSteps_succ {size : Nat} {step step' : BitVec w → Nat → BitVec w} (h : ∀ x p, step x (size + p) = step' x p)
    (count : Nat) (x : BitVec w) : tailSteps size step (count + 1) 0 x = tailSteps size step' count 0 (step x 0) := by
  rw [tailSteps, Nat.zero_add]
  exact tailSteps_add h count 0 _

end Tail

theorem readLE_drop (w : Nat) (t : Bytes) (d p : Nat) : readLE w (t.drop d) p = readLE w t (d + p) := by
  rw [readLE, readLE, List.drop_drop]

theorem readU8_drop (t : Bytes) (d p : Nat) : readU8 (t.drop d) p = readU8 t (d + p) := by
  simp [readU8]

/-- `tail32` in the numbers of its 4-byte and 1-byte steps (42_finalizer.md R152). -/
theorem tail32_eq {t : Bytes} {words bytes : Nat} (hlength : t.length = 4 * words + bytes) (hbytes : bytes < 4)
    (h : Word32) : tail32 h t =
      tailSteps 1 (fun h p => tailByte32 h (readU8 t p)) bytes (4 * words)
        (tailSteps 4 (fun h p => tailWord32 h (readLE 32 t p)) words 0 h) := by
  have hdiv : t.length / 4 = words := by omega
  have hmod : t.length % 4 = bytes := by omega
  rw [tail32, hdiv, hmod]

/-- With 4 bytes or more there, `tail32` takes a 4-byte step from the front. -/
theorem tail32_word {t : Bytes} (h4 : 4 ≤ t.length) (h : Word32) :
    tail32 h t = tail32 (tailWord32 h (readLE 32 t 0)) (t.drop 4) := by
  obtain ⟨words, bytes, hlength, hbytes⟩ : ∃ words bytes, t.length = 4 * (words + 1) + bytes ∧ bytes < 4 :=
    ⟨t.length / 4 - 1, t.length % 4, by omega, by omega⟩
  have hrest : (t.drop 4).length = 4 * words + bytes := by rw [List.length_drop]; omega
  rw [tail32_eq hlength hbytes, tail32_eq hrest hbytes, Nat.mul_succ, Nat.add_comm (4 * words),
    tailSteps_succ fun x p => by rw [← readLE_drop], tailSteps_add fun x p => by rw [← readU8_drop]]

/-- With 1 to 3 bytes there, `tail32` takes a 1-byte step from the front. -/
theorem tail32_byte {t : Bytes} (h0 : 0 < t.length) (h4 : t.length < 4) (h : Word32) :
    tail32 h t = tail32 (tailByte32 h (readU8 t 0)) (t.drop 1) := by
  obtain ⟨bytes, hbytes⟩ : ∃ bytes, t.length = bytes + 1 := ⟨t.length - 1, by omega⟩
  have hrest : (t.drop 1).length = 4 * 0 + bytes := by rw [List.length_drop]; omega
  rw [tail32_eq (words := 0) (bytes := bytes + 1) (by omega) (by omega), tail32_eq hrest (by omega)]
  exact tailSteps_succ (fun x p => by rw [← readU8_drop]) bytes h

/-- Settles O47: one step of each size from the front, and none where no byte remains. -/
theorem tail32IsItsLoop : Obligations.Tail32IsItsLoop := by
  unfold Obligations.Tail32IsItsLoop
  exact fun h t => ⟨fun h4 => tail32_word h4 h, fun h0 h4 => tail32_byte h0 h4 h, rfl⟩

/-- `tail64` in the numbers of its 8-byte, 4-byte and 1-byte steps (42_finalizer.md R156). -/
theorem tail64_eq {t : Bytes} {quads words bytes : Nat} (hlength : t.length = 8 * quads + 4 * words + bytes)
    (hwords : words < 2) (hbytes : bytes < 4) (h : Word64) : tail64 h t =
      tailSteps 1 (fun h p => tailByte64 h (readU8 t p)) bytes (8 * quads + 4 * words)
        (tailSteps 4 (fun h p => tailWord64 h (readLE 32 t p)) words (8 * quads)
          (tailSteps 8 (fun h p => tailQuad64 h (readLE 64 t p)) quads 0 h)) := by
  have hquads : t.length / 8 = quads := by omega
  have hdiv : t.length % 8 / 4 = words := by omega
  have hmod : t.length % 4 = bytes := by omega
  rw [tail64, hquads, hdiv, hmod]

/-- With 8 bytes or more there, `tail64` takes an 8-byte step from the front. -/
theorem tail64_quad {t : Bytes} (h8 : 8 ≤ t.length) (h : Word64) :
    tail64 h t = tail64 (tailQuad64 h (readLE 64 t 0)) (t.drop 8) := by
  obtain ⟨quads, words, bytes, hlength, hwords, hbytes⟩ : ∃ quads words bytes,
      t.length = 8 * (quads + 1) + 4 * words + bytes ∧ words < 2 ∧ bytes < 4 :=
    ⟨t.length / 8 - 1, t.length % 8 / 4, t.length % 4, by omega, by omega, by omega⟩
  have hrest : (t.drop 8).length = 8 * quads + 4 * words + bytes := by rw [List.length_drop]; omega
  rw [tail64_eq hlength hwords hbytes, tail64_eq hrest hwords hbytes, Nat.mul_succ, Nat.add_comm (8 * quads),
    Nat.add_assoc, tailSteps_add fun x p => by rw [← readU8_drop],
    tailSteps_add (size := 4) fun x p => by rw [← readLE_drop], tailSteps_succ fun x p => by rw [← readLE_drop]]

/-- With 4 to 7 bytes there, `tail64` takes its one 4-byte step from the front. -/
theorem tail64_word {t : Bytes} (h4 : 4 ≤ t.length) (h8 : t.length < 8) (h : Word64) :
    tail64 h t = tail64 (tailWord64 h (readLE 32 t 0)) (t.drop 4) := by
  obtain ⟨bytes, hlength⟩ : ∃ bytes, t.length = 8 * 0 + 4 * 1 + bytes := ⟨t.length - 4, by omega⟩
  have hrest : (t.drop 4).length = 8 * 0 + 4 * 0 + bytes := by rw [List.length_drop]; omega
  rw [tail64_eq hlength (by omega) (by omega), tail64_eq hrest (by omega) (by omega)]
  simp only [tailSteps]
  exact tailSteps_add (d := 4) (fun x p => by rw [← readU8_drop]) bytes 0 _

/-- With 1 to 3 bytes there, `tail64` takes a 1-byte step from the front. -/
theorem tail64_byte {t : Bytes} (h0 : 0 < t.length) (h4 : t.length < 4) (h : Word64) :
    tail64 h t = tail64 (tailByte64 h (readU8 t 0)) (t.drop 1) := by
  obtain ⟨bytes, hlength⟩ : ∃ bytes, t.length = 8 * 0 + 4 * 0 + (bytes + 1) := ⟨t.length - 1, by omega⟩
  have hrest : (t.drop 1).length = 8 * 0 + 4 * 0 + bytes := by rw [List.length_drop]; omega
  rw [tail64_eq hlength (by omega) (by omega), tail64_eq hrest (by omega) (by omega)]
  exact tailSteps_succ (fun x p => by rw [← readU8_drop]) bytes h

/-- Settles O48: one step of each size from the front, and none where no byte remains. -/
theorem tail64IsItsLoop : Obligations.Tail64IsItsLoop := by
  unfold Obligations.Tail64IsItsLoop
  exact fun h t => ⟨fun h8 => tail64_quad h8 h, fun h4 h8 => tail64_word h4 h8 h, fun h0 h4 => tail64_byte h0 h4 h, rfl⟩

/-! ### The stages of the digest -/

/-- The short path is the one below a block (42_finalizer.md R140). -/
theorem ite_large {w : Nat} {α : Type} (E : Engine w) (st : HashState w) (long short : α) :
    (if large E st then long else short) = if st.totalLength.toNat < E.block then short else long := by
  simp only [large_iff, ← Nat.not_lt, ite_not]

/-- Settles O45: the stages are the definitions of the seeding and the avalanche. -/
theorem final32IsItsStages : Obligations.Final32IsItsStages := by
  unfold Obligations.Final32IsItsStages
  intro st
  rw [final32, ite_large]
  exact ⟨_, _, _, rfl, rfl, rfl, rfl⟩

/-- Settles O46: the stages are the definitions of the seeding, the mergeRounds and the avalanche. -/
theorem final64IsItsStages : Obligations.Final64IsItsStages := by
  unfold Obligations.Final64IsItsStages
  intro st
  rw [final64, ite_large]
  exact ⟨_, _, _, _, _, _, _, _, rfl, rfl, rfl, rfl, rfl, rfl, rfl, rfl, rfl⟩

end Sys2Proof.Machine
end

section
/-! PROOFS. A digest as bytes, most significant first, and as hexadecimal digits (42_finalizer.md R162, R163). -/

namespace Sys2Proof.Machine

/-! ### Digest bytes -/

/-- Byte `k` of a number, least significant first. -/
theorem getElem?_leBytes {n k : Nat} (h : k < n) (x : Nat) :
    (leBytes n x)[k]? = some (BitVec.ofNat 8 (x / 2 ^ (8 * k))) := by
  induction n generalizing k x with
  | zero => omega
  | succ n ih =>
    cases k with
    | zero => simp [leBytes]
    | succ k =>
      rw [leBytes, List.getElem?_cons_succ, ih (by omega), Nat.div_div_eq_div_mul, ← Nat.pow_add, Nat.mul_succ,
        Nat.add_comm 8]

/-- A byte made of a number takes its low 8 bits anyway. -/
theorem byte_ofNat_mod (x : Nat) : BitVec.ofNat 8 (x % 256) = BitVec.ofNat 8 x := BitVec.eq_of_toNat_eq (by simp)

section DigestBytes

variable {w : Nat} (E : Engine w) (h : BitVec w)

@[simp] theorem digestBytes_length : (digestBytes E h).length = E.digestSize := by simp [digestBytes]

theorem getElem?_digestBytes {k : Nat} (hk : k < E.digestSize) :
    (digestBytes E h)[k]? = some (BitVec.ofNat 8 (h.toNat / 2 ^ (8 * (E.digestSize - 1 - k)) % 256)) := by
  simp [digestBytes, hk, Nat.shiftRight_eq_div_pow]

/-- A digest's bytes are those of the number, the other way round. -/
theorem digestBytes_reverse : (digestBytes E h).reverse = leBytes E.digestSize h.toNat := by
  apply List.ext_getElem?
  intro k
  rcases Nat.lt_or_ge k E.digestSize with hk | hk
  · have hfar : E.digestSize - 1 - (E.digestSize - 1 - k) = k := by omega
    rw [List.getElem?_reverse (by simpa using hk), digestBytes_length, getElem?_digestBytes E h (by omega),
      getElem?_leBytes hk, hfar, byte_ofNat_mod]
  · rw [List.getElem?_eq_none (by simpa using hk), List.getElem?_eq_none (by simpa using hk)]

/-- An engine whose digest bytes hold its whole digest loses nothing of it. -/
theorem leNat_digestBytes_reverse (hw : w = 8 * E.digestSize) : leNat (digestBytes E h).reverse = h.toNat := by
  rw [digestBytes_reverse, leNat_leBytes, ← hw, Nat.mod_eq_of_lt h.isLt]

end DigestBytes

/-- Settles O49: the length, the number spelt and each byte, at the two engines. -/
theorem digestBytesAreMostSignificantFirst : Obligations.DigestBytesAreMostSignificantFirst := by
  unfold Obligations.DigestBytesAreMostSignificantFirst
  exact ⟨fun h => ⟨digestBytes_length _ h, leNat_digestBytes_reverse _ h rfl, fun _ => getElem?_digestBytes xxh32 h⟩,
    fun h => ⟨digestBytes_length _ h, leNat_digestBytes_reverse _ h rfl, fun _ => getElem?_digestBytes xxh64 h⟩⟩

/-! ### Hexadecimal digits -/

theorem hexDigit_mem {n : Nat} (h : n < 16) : hexDigit n ∈ "0123456789abcdef".toList := by
  revert n
  decide

/-- Reading a hexadecimal digit gives the number it was written for. -/
theorem digitValue_hexDigit {n : Nat} (h : n < 16) : digitValue (hexDigit n) = some n := by
  revert n
  decide

/-- A byte as two hexadecimal digits, high digit first: `hexDigest` writes these for each digest byte. -/
def hexPair (b : Byte) : List Char := [hexDigit (b.toNat / 16), hexDigit (b.toNat % 16)]

theorem hexDigest_eq {w : Nat} (E : Engine w) (h : BitVec w) : hexDigest E h = (digestBytes E h).flatMap hexPair := rfl

theorem flatMap_hexPair_length (bytes : Bytes) : (bytes.flatMap hexPair).length = 2 * bytes.length := by
  simp [List.length_flatMap, hexPair, Nat.mul_comm]

theorem mem_flatMap_hexPair {bytes : Bytes} {c : Char} (h : c ∈ bytes.flatMap hexPair) :
    c ∈ "0123456789abcdef".toList := by
  obtain ⟨b, -, hc⟩ := List.mem_flatMap.mp h
  have hb : b.toNat < 2 ^ 8 := b.isLt
  obtain rfl | rfl : c = hexDigit (b.toNat / 16) ∨ c = hexDigit (b.toNat % 16) := by simpa [hexPair] using hc
  · exact hexDigit_mem (by omega)
  · exact hexDigit_mem (by omega)

/-- One step of `digitsValue`: the number read so far, and the next digit. -/
def readDigit (base acc : Nat) (d : Char) : Option Nat :=
  (digitValue d).bind fun v => if v < base then some (acc * base + v) else none

theorem digitsValue_eq_foldlM {base : Nat} {ds : List Char} (h : ds ≠ []) :
    digitsValue base ds = ds.foldlM (readDigit base) 0 := if_neg h

theorem readDigit_hexDigit (acc : Nat) {n : Nat} (h : n < 16) : readDigit 16 acc (hexDigit n) = some (acc * 16 + n) := by
  simp [readDigit, digitValue_hexDigit h, h]

/-- The two digits of a byte append it to the number read so far. -/
theorem foldlM_hexPair (acc : Nat) (b : Byte) : (hexPair b).foldlM (readDigit 16) acc = some (b.toNat + 2 ^ 8 * acc) := by
  have hb : b.toNat < 2 ^ 8 := b.isLt
  have hvalue : (acc * 16 + b.toNat / 16) * 16 + b.toNat % 16 = b.toNat + 2 ^ 8 * acc := by omega
  rw [hexPair, List.foldlM_cons, readDigit_hexDigit acc (by omega)]
  simp [readDigit_hexDigit, Nat.mod_lt, hvalue]

/-- Hexadecimal digits of bytes spell the number whose most significant byte comes first. -/
theorem foldlM_flatMap_hexPair (bytes : Bytes) :
    (bytes.flatMap hexPair).foldlM (readDigit 16) 0 = some (leNat bytes.reverse) := by
  induction bytes using List.reverseRecOn with
  | nil => rfl
  | append_singleton bytes b ih =>
    rw [List.flatMap_append, List.foldlM_append, ih, List.reverse_append]
    simp [foldlM_hexPair, leNat]

/-- `hexDigest` of an engine whose digest bytes hold its whole digest (42_finalizer.md R163). -/
theorem hexDigest_spells {w : Nat} (E : Engine w) (hw : w = 8 * E.digestSize) (hpos : 0 < E.digestSize) (h : BitVec w) :
    (hexDigest E h).length = 2 * E.digestSize ∧ (∀ c ∈ hexDigest E h, c ∈ "0123456789abcdef".toList) ∧
      digitsValue 16 (hexDigest E h) = some h.toNat := by
  have hlength : (hexDigest E h).length = 2 * E.digestSize := by
    rw [hexDigest_eq, flatMap_hexPair_length, digestBytes_length]
  have hne : hexDigest E h ≠ [] := List.ne_nil_of_length_pos (by omega)
  refine ⟨hlength, fun c => mem_flatMap_hexPair, ?_⟩
  rw [digitsValue_eq_foldlM hne, hexDigest_eq, foldlM_flatMap_hexPair, leNat_digestBytes_reverse E h hw]

/-- Settles O50: the 4 and the 8 digest bytes of the two engines in hexadecimal. -/
theorem hexDigestIsPaddedLowercaseHex : Obligations.HexDigestIsPaddedLowercaseHex := by
  unfold Obligations.HexDigestIsPaddedLowercaseHex
  exact ⟨hexDigest_spells xxh32 rfl (by decide), hexDigest_spells xxh64 rfl (by decide)⟩

end Sys2Proof.Machine
end

section
/-! PROOFS. HASH32 and HASH64: the one-shot digest, and the wait for a payload that is not all there (43_oneshot.md R170 to
R174). -/

namespace Sys2Proof.Machine

open Sys2Proof.Claims

/-! ### The seed operand -/

/-- The seed of XXH32 is read where the high half of `IMM` is zero, and is then the low half (30_encoding.md R77). -/
theorem seedOperand32_eq_some {imm : Word64} {seed : Word32} :
    seedOperand32 imm = some seed ↔ imm.extractLsb' 32 32 = 0#32 ∧ imm.extractLsb' 0 32 = seed := by
  rw [seedOperand32, Option.ite_none_right_eq_some, Option.some_inj]

/-! ### HASH -/

section OneShot

variable {s : State} {len : BitVec 32} {imm : Word64}

/-- HASH32 with a high half of `IMM` that is no seed takes its fault before any payload byte (43_oneshot.md R172). -/
theorem exec_hash32_invalidArgument (h : imm.extractLsb' 32 32 ≠ 0#32) :
    exec (.hash32 len imm) s = .next (s.takeFault .invalidArgument) := by
  simp [exec, execHash32, seedOperand32, h]

/-- HASH32 accepted: its own Hash State counts `LEN` bytes, then the payload bytes there are consumed (43_oneshot.md R174). -/
theorem exec_hash32_accepted (h : imm.extractLsb' 32 32 = 0#32) :
    exec (.hash32 len imm) s = .next
      (s.movedTo (.payload (.hash32 (advance (initState xxh32 (imm.extractLsb' 0 32)) (len.setWidth 64))) len.toNat)
        (s.pos + 16) (s.stream.drop 16)).pump := by
  simp only [exec, execHash32, seedOperand32_eq_some.2 ⟨h, rfl⟩]
  rfl

/-- HASH64 is accepted for every `IMM` (43_oneshot.md R173). -/
theorem exec_hash64_accepted (len : BitVec 32) (imm : Word64) (s : State) :
    exec (.hash64 len imm) s = .next
      (s.movedTo (.payload (.hash64 (advance (initState xxh64 imm) (len.setWidth 64))) len.toNat)
        (s.pos + 16) (s.stream.drop 16)).pump := rfl

/-- Counting `LEN` bytes and then feeding a payload of that length is absorbing it (41_hash_state.md R125, R130). -/
theorem feed_advance_length {w : Nat} (E : Engine w) (st : HashState w) {payload : Bytes}
    (hlen : payload.length = len.toNat) : feed E (advance st (len.setWidth 64)) payload = absorb E st payload := by
  rw [absorb, hlen, BitVec.ofNat_toNat]

end OneShot

/-- Settles O17: the fault of the seed operand, or the command's own Hash State absorbs the whole payload. -/
theorem hash32RespondsWithOneShotDigestOrFaults : Obligations.Hash32RespondsWithOneShotDigestOrFaults := by
  unfold Obligations.Hash32RespondsWithOneShotDigestOrFaults
  intro len imm s
  refine ⟨exec_hash32_invalidArgument, fun payload rest hseed hstream hlen => ?_⟩
  rw [exec_hash32_accepted hseed, hstream, pump_movedTo_complete _ _ _ rest hlen, ← feed_advance_length _ _ hlen,
    Nat.add_assoc]
  rfl

/-- Settles O18: the command's own Hash State absorbs the whole payload, whatever the seed. -/
theorem hash64RespondsWithOneShotDigest : Obligations.Hash64RespondsWithOneShotDigest := by
  unfold Obligations.Hash64RespondsWithOneShotDigest
  intro len imm s payload rest hstream hlen
  rw [exec_hash64_accepted, hstream, pump_movedTo_complete _ _ _ rest hlen, ← feed_advance_length _ _ hlen,
    Nat.add_assoc]
  rfl

/-- Settles O19: the job that waits is the command's own Hash State, fed the bytes there. -/
theorem hashWaitsForItsPayload : Obligations.HashWaitsForItsPayload := by
  unfold Obligations.HashWaitsForItsPayload
  intro len imm s hshort
  refine ⟨fun hseed => ?_, ?_⟩
  · rw [exec_hash32_accepted hseed, pump_movedTo_waiting _ _ _ hshort]
    rfl
  · rw [exec_hash64_accepted, pump_movedTo_waiting _ _ _ hshort]
    rfl

end Sys2Proof.Machine
end

section
/-! PROOFS. INIT, UPDs and DIG executed in a row respond with the one-shot digest (43_oneshot.md R171): one argument about
commands executed in a row, and what the three commands of an engine do to the slot they name. -/

namespace Sys2Proof.Machine

open Sys2Proof.Claims

/-! ### Commands executed in a row -/

/-- From every IDLE state that meets `P` and has the bytes of `cs` at the front of its stream, executing the commands of `cs`
consumes exactly these bytes, gives `responses`, and ends in IDLE and in `Q`. -/
def Runs (cs : List Command) (responses : List Response) (P Q : State → Prop) : Prop :=
  ∀ (s : State) (rest : Bytes), s.phase = .idle → s.stream = streamOf cs ++ rest → P s →
    ∃ t, execAll (cs.map (·.instr)) s = .next t ∧ t.phase = .idle ∧ t.stream = rest ∧
      t.responses = s.responses ++ responses ∧ Q t

/-- Commands executed after others that ended in `t` are executed from `t`. -/
theorem execAll_append {is : List Instr} {s t : State} (h : execAll is s = .next t) (js : List Instr) :
    execAll (is ++ js) s = execAll js t := by
  induction is generalizing s with
  | nil => cases h; rfl
  | cons i is ih =>
    rw [List.cons_append, execAll]
    rw [execAll] at h
    split at h
    next => exact ih h
    next => cases h
    next => cases h

section Runs

variable {P Q R : State → Prop} {cs cs' : List Command} {rs rs' : List Response}

theorem Runs.nil : Runs [] [] P P :=
  fun s _ hidle hstream hP => ⟨s, rfl, hidle, hstream, (List.append_nil _).symm, hP⟩

theorem Runs.append (h : Runs cs rs P Q) (h' : Runs cs' rs' Q R) : Runs (cs ++ cs') (rs ++ rs') P R := by
  intro s rest hidle hstream hP
  rw [streamOf, List.flatMap_append, List.append_assoc] at hstream
  obtain ⟨t, ht, hidle, hstream, hresponses, hQ⟩ := h s _ hidle hstream hP
  obtain ⟨u, hu, hidle, hstream, hresponses', hR⟩ := h' t rest hidle hstream hQ
  refine ⟨u, ?_, hidle, hstream, ?_, hR⟩
  · rw [List.map_append, execAll_append ht, hu]
  · rw [hresponses', hresponses, List.append_assoc]

/-- One command, by what `exec` makes of it when its payload follows its descriptor. -/
theorem Runs.single {c : Command} {r : Response}
    (h : ∀ (s : State) (rest : Bytes), s.phase = .idle → s.stream.drop 16 = c.payload ++ rest → P s →
      ∃ t, exec c.instr s = .next t ∧ t.phase = .idle ∧ t.stream = rest ∧ t.responses = s.responses ++ [r] ∧ Q t) :
    Runs [c] [r] P Q := by
  intro s rest hidle hstream hP
  have hpayload : s.stream.drop 16 = c.payload ++ rest := by
    rw [hstream, streamOf, List.flatMap_singleton, commandBytes, List.append_assoc, List.drop_left' (encode_length _)]
  obtain ⟨t, ht, hend⟩ := h s rest hidle hpayload hP
  exact ⟨t, by simp only [List.map_singleton, execAll, ht], hend⟩

end Runs

/-! ### Streaming a message in parts -/

/-- The response of a command that completes without a value. -/
def okResponse : Response := ⟨0x00#8, 0#64⟩

/-- Each `upd part` appends its part to the message held, for messages that the length counter can count. -/
def Appends (upd : Bytes → Command) (holds : Bytes → State → Prop) : Prop :=
  ∀ message part : Bytes, part.length < 2 ^ 32 → message.length + part.length < 2 ^ 64 →
    Runs [upd part] [okResponse] (holds message) (holds (message ++ part))

section Streaming

variable {upd : Bytes → Command} {holds : Bytes → State → Prop}

/-- Updates in a row append the concatenation of their parts. -/
theorem Appends.parts (hupd : Appends upd holds) {parts : List Bytes} (hparts : ∀ part ∈ parts, part.length < 2 ^ 32)
    {message : Bytes} (hlen : message.length + parts.flatten.length < 2 ^ 64) :
    Runs (parts.map upd) (List.replicate parts.length okResponse) (holds message) (holds (message ++ parts.flatten)) := by
  induction parts generalizing message with
  | nil => simpa using Runs.nil
  | cons part parts ih =>
    obtain ⟨hpart, hparts⟩ := List.forall_mem_cons.1 hparts
    rw [List.flatten_cons, List.length_append] at hlen
    have hfirst := hupd message part hpart (by omega)
    have hothers := ih hparts (message := message ++ part) (by rw [List.length_append]; omega)
    rw [List.flatten_cons, ← List.append_assoc]
    exact hfirst.append hothers

/-- Constructing, updating part by part and digesting answers the digest of the whole message, however it was cut. -/
theorem Appends.streamed (hupd : Appends upd holds) {init dig : Command} {P : State → Prop} {digest : Bytes → Response}
    (hinit : Runs [init] [okResponse] P (holds []))
    (hdig : ∀ message, Runs [dig] [digest message] (holds message) (holds message))
    {parts : List Bytes} (hparts : ∀ part ∈ parts, part.length < 2 ^ 32) (hlen : parts.flatten.length < 2 ^ 64) :
    Runs (init :: parts.map upd ++ [dig]) (List.replicate (parts.length + 1) okResponse ++ [digest parts.flatten])
      P (holds parts.flatten) :=
  (hinit.append (hupd.parts hparts (by simpa using hlen))).append (hdig parts.flatten)

end Streaming

/-! ### The three commands of an engine -/

/-- The slot is valid and holds what constructing from `seed` and absorbing `message` leaves (10_state.md R28). -/
def Absorbed {w : Nat} (E : Engine w) (seed : BitVec w) (message : Bytes) (slot : Option (Slot w)) : Prop :=
  slot = some ⟨true, absorb E (initState E seed) message⟩

section Absorbed

variable {w : Nat} {E : Engine w} {seed : BitVec w} {slots : List (Slot w)} {c : Nat}

theorem absorbed_set_init (hc : c < slots.length) : Absorbed E seed [] (slots.set c ⟨true, initState E seed⟩)[c]? := by
  rw [Absorbed, List.getElem?_set_self hc, absorb_initState_nil]

/-- Writing back a slot that has absorbed a further part. -/
theorem Absorbed.set_absorb (hE : 0 < E.block) {message : Bytes} (h : Absorbed E seed message slots[c]?) (part : Bytes) :
    Absorbed E seed (message ++ part)
      (slots.set c ⟨true, absorb E (absorb E (initState E seed) message) part⟩)[c]? := by
  obtain ⟨hc, -⟩ := List.getElem?_eq_some_iff.1 h
  rw [Absorbed, List.getElem?_set_self hc, absorb_absorb hE]

/-- A message that the counter can count is counted exactly. -/
theorem absorb_initState_totalLength {message : Bytes} (h : message.length < 2 ^ 64) :
    (absorb E (initState E seed) message).totalLength.toNat = message.length := by
  rw [absorb_totalLength, initState_totalLength, BitVec.zero_add, BitVec.toNat_ofNat, Nat.mod_eq_of_lt h]

end Absorbed

section Commands

variable {c : Nat} {imm : Word64}

theorem runs_init32 {seed : Word32} (himm : seedOperand32 imm = some seed) :
    Runs [plain (.init32 c imm)] [okResponse] (c < ·.ctx32.length) (Absorbed xxh32 seed [] ·.ctx32[c]?) := by
  obtain ⟨hhigh, rfl⟩ := seedOperand32_eq_some.1 himm
  refine .single fun s rest hidle hstream hc => ?_
  obtain ⟨-, -, hexec⟩ := init32ConstructsOrFaults c imm s
  exact ⟨_, hexec hc hhigh, hidle, hstream, rfl, absorbed_set_init hc⟩

theorem runs_init64 :
    Runs [plain (.init64 c imm)] [okResponse] (c < ·.ctx64.length) (Absorbed xxh64 imm [] ·.ctx64[c]?) := by
  refine .single fun s rest hidle hstream hc => ?_
  obtain ⟨-, hexec⟩ := init64ConstructsOrFaults c imm s
  exact ⟨_, hexec hc, hidle, hstream, rfl, absorbed_set_init hc⟩

theorem appends_upd32 (c : Nat) (seed : Word32) :
    Appends (upd32Command c) fun message s => Absorbed xxh32 seed message s.ctx32[c]? := by
  intro message part hpart hlen
  refine .single fun s rest _ hstream hslot => ?_
  have hcount := toNat_ofNat_length (Nat.le_pred_of_lt hpart)
  have htotal := absorb_initState_totalLength (E := xxh32) (seed := seed) (message := message) (by omega)
  exact ⟨_, exec_upd32_complete hslot (by omega) hstream hcount.symm, rfl, rfl, rfl, hslot.set_absorb xxh32_block_pos part⟩

theorem appends_upd64 (c : Nat) (seed : Word64) :
    Appends (upd64Command c) fun message s => Absorbed xxh64 seed message s.ctx64[c]? := by
  intro message part hpart hlen
  refine .single fun s rest _ hstream hslot => ?_
  have hcount := toNat_ofNat_length (Nat.le_pred_of_lt hpart)
  have htotal := absorb_initState_totalLength (E := xxh64) (seed := seed) (message := message) (by omega)
  exact ⟨_, exec_upd64_complete hslot (by omega) hstream hcount.symm, rfl, rfl, rfl, hslot.set_absorb xxh64_block_pos part⟩

theorem runs_dig32 (c : Nat) (seed : Word32) (message : Bytes) :
    Runs [plain (.dig32 c)] [⟨0x00#8, (hash32 message seed).setWidth 64⟩]
      (Absorbed xxh32 seed message ·.ctx32[c]?) (Absorbed xxh32 seed message ·.ctx32[c]?) := by
  refine .single fun s rest hidle hstream hslot => ?_
  obtain ⟨-, -, hexec⟩ := dig32RespondsWithDigestOrFaults c s
  exact ⟨_, hexec _ hslot, hidle, hstream, rfl, hslot⟩

theorem runs_dig64 (c : Nat) (seed : Word64) (message : Bytes) :
    Runs [plain (.dig64 c)] [⟨0x00#8, hash64 message seed⟩]
      (Absorbed xxh64 seed message ·.ctx64[c]?) (Absorbed xxh64 seed message ·.ctx64[c]?) := by
  refine .single fun s rest hidle hstream hslot => ?_
  obtain ⟨-, -, hexec⟩ := dig64RespondsWithDigestOrFaults c s
  exact ⟨_, hexec _ hslot, hidle, hstream, rfl, hslot⟩

end Commands

/-- Settles O56: each UPD appends its part to the message its slot has absorbed since INIT, and DIG reads the slot. -/
theorem streamedDigestIsOneShotDigest : Obligations.StreamedDigestIsOneShotDigest := by
  unfold Obligations.StreamedDigestIsOneShotDigest
  intro c imm parts rest s hidle hparts hlen
  refine ⟨fun hc himm hstream => ?_, fun hc hstream => ?_⟩
  · have hseed : seedOperand32 imm = some (imm.setWidth 32) := by rw [seedOperand32_eq, if_pos himm]
    obtain ⟨t, ht, htidle, htstream, htresponses, -⟩ :=
      (appends_upd32 c _).streamed (runs_init32 hseed) (runs_dig32 c _) hparts hlen s rest hidle hstream hc
    exact ⟨t, ht, htidle, htstream, by rw [htresponses, List.append_assoc, okResponse]⟩
  · obtain ⟨t, ht, htidle, htstream, htresponses, -⟩ :=
      (appends_upd64 c imm).streamed runs_init64 (runs_dig64 c imm) hparts hlen s rest hidle hstream hc
    exact ⟨t, ht, htidle, htstream, by rw [htresponses, List.append_assoc, okResponse]⟩

end Sys2Proof.Machine
end

section
/-! PROOFS. CPY32 and CPY64: the copy and its faults, and that a copy and its source stay apart (44_clone_info.md R180 to
R182); INFO32 and INFO64 (44_clone_info.md R184). -/

namespace Sys2Proof.Machine

open Sys2Proof.Claims

/-! ### What CPY does -/

section Cpy

variable {s : State} {cd cs : Nat}

theorem exec_cpy32_badContext (h : s.ctx32.length ≤ cd ∨ s.ctx32.length ≤ cs) :
    exec (.cpy32 cd cs) s = .next (s.takeFault .badContext) := by
  obtain hcd | hcs := h
  · simp [exec, execCpy32, hcd]
  · simp [exec, execCpy32, List.getElem?_eq_none hcs]

theorem exec_cpy32_contextInvalid {st : HashState 32} (hcd : cd < s.ctx32.length)
    (hcs : s.ctx32[cs]? = some ⟨false, st⟩) : exec (.cpy32 cd cs) s = .next (s.takeFault .contextInvalid) := by
  simp [exec, execCpy32, Nat.not_le_of_lt hcd, hcs]

theorem exec_cpy32_copies {st : HashState 32} (hcd : cd < s.ctx32.length) (hcs : s.ctx32[cs]? = some ⟨true, st⟩) :
    exec (.cpy32 cd cs) s = .next ((s.consumeDescriptor.setSlot32 cd ⟨true, st⟩).complete 0#64) := by
  simp [exec, execCpy32, Nat.not_le_of_lt hcd, hcs]

theorem exec_cpy64_badContext (h : s.ctx64.length ≤ cd ∨ s.ctx64.length ≤ cs) :
    exec (.cpy64 cd cs) s = .next (s.takeFault .badContext) := by
  obtain hcd | hcs := h
  · simp [exec, execCpy64, hcd]
  · simp [exec, execCpy64, List.getElem?_eq_none hcs]

theorem exec_cpy64_contextInvalid {st : HashState 64} (hcd : cd < s.ctx64.length)
    (hcs : s.ctx64[cs]? = some ⟨false, st⟩) : exec (.cpy64 cd cs) s = .next (s.takeFault .contextInvalid) := by
  simp [exec, execCpy64, Nat.not_le_of_lt hcd, hcs]

theorem exec_cpy64_copies {st : HashState 64} (hcd : cd < s.ctx64.length) (hcs : s.ctx64[cs]? = some ⟨true, st⟩) :
    exec (.cpy64 cd cs) s = .next ((s.consumeDescriptor.setSlot64 cd ⟨true, st⟩).complete 0#64) := by
  simp [exec, execCpy64, Nat.not_le_of_lt hcd, hcs]

end Cpy

/-- Settles O14: an index is out of range, the source is not valid, or it is copied. -/
theorem cpy32CopiesOrFaults : Obligations.Cpy32CopiesOrFaults := by
  unfold Obligations.Cpy32CopiesOrFaults
  intro cd cs s
  exact ⟨exec_cpy32_badContext, fun _ => exec_cpy32_contextInvalid, fun _ => exec_cpy32_copies⟩

/-- Settles O15: an index is out of range, the source is not valid, or it is copied. -/
theorem cpy64CopiesOrFaults : Obligations.Cpy64CopiesOrFaults := by
  unfold Obligations.Cpy64CopiesOrFaults
  intro cd cs s
  exact ⟨exec_cpy64_badContext, fun _ => exec_cpy64_contextInvalid, fun _ => exec_cpy64_copies⟩

/-! ### A copy and its source -/

section Copy

variable {w : Nat} {slots slots' : List (Slot w)} {cd cs : Nat} {slot : Slot w}

/-- Writing the content of slot `cs` onto slot `cd` leaves both slots with it, and is no change where they are the same. -/
theorem set_copy (hcd : cd < slots.length) (hcs : slots[cs]? = some slot) :
    (slots.set cd slot)[cd]? = some slot ∧ (slots.set cd slot)[cs]? = some slot ∧
      (cd = cs → slots.set cd slot = slots) := by
  have hdest : (slots.set cd slot)[cd]? = some slot := List.getElem?_set_self hcd
  by_cases heq : cd = cs
  · subst heq
    obtain ⟨_, rfl⟩ := List.getElem?_eq_some_iff.mp hcs
    exact ⟨hdest, hdest, fun _ => List.set_getElem_self hcd⟩
  · exact ⟨hdest, (List.getElem?_set_ne heq).trans hcs, fun h => absurd h heq⟩

/-- Of two slots, a command that writes one leaves the other. -/
theorem Framed.other {dest : Option Nat} (h : Framed (dest = some ·) slots slots') (hne : cd ≠ cs) :
    (dest = some cd → slots'[cs]? = slots[cs]?) ∧ (dest = some cs → slots'[cd]? = slots[cd]?) := by
  refine ⟨fun hw => h.slot cs ?_, fun hw => h.slot cd ?_⟩
  · simpa [hw] using hne
  · simpa [hw] using hne.symm

end Copy

/-- Settles O16: CPY writes the content of the source, and every command is framed by the slot it writes. -/
theorem clonesAreIndependent : Obligations.ClonesAreIndependent := by
  unfold Obligations.ClonesAreIndependent
  intro cd cs s t u i
  refine ⟨fun st hcd hcs ht => ?_, fun st hcd hcs ht => ?_⟩
  · obtain rfl : _ = t := by simpa [exec_cpy32_copies hcd hcs] using ht
    obtain ⟨hdest, hsource, hself⟩ := set_copy hcd hcs
    exact ⟨hdest, hsource, hself, fun hne hu => (exec_executed i _ u hu).framed.1.other hne⟩
  · obtain rfl : _ = t := by simpa [exec_cpy64_copies hcd hcs] using ht
    obtain ⟨hdest, hsource, hself⟩ := set_copy hcd hcs
    exact ⟨hdest, hsource, hself, fun hne hu => (exec_executed i _ u hu).framed.2.other hne⟩

/-! ### INFO -/

theorem infoWord_xxh32 : infoWord xxh32 = 0x5858483332001004#64 := by decide

theorem infoWord_xxh64 : infoWord xxh64 = 0x5858483634002008#64 := by decide

/-- Settles O20: the attribute words packed from the constants of the two engines. -/
theorem infoRespondsWithAttributeWord : Obligations.InfoRespondsWithAttributeWord := by
  unfold Obligations.InfoRespondsWithAttributeWord
  intro s
  rw [← infoWord_xxh32, ← infoWord_xxh64]
  exact ⟨rfl, rfl⟩

end Sys2Proof.Machine
end

section
/-! PROOFS. What a step does as the run stands, a descriptor that is no command, and fault entry (60_exceptions.md R192,
R200 to R202). -/

namespace Sys2Proof.Machine

open Sys2Proof.Claims

/-! ### What stands at the front of the stream -/

/-- Refusing a descriptor is never a matter of missing bytes. -/
theorem decodeWord_ne_incomplete (d : Descriptor) : decodeWord d ≠ .error .incomplete := by
  simp only [decodeWord, whenZero]
  split_ifs <;> simp

/-- Where a whole descriptor is there the sequencer does not wait. -/
theorem fetch_of_length {s : State} (h : 16 ≤ s.stream.length) : s.fetch = .illegal ∨ ∃ i, s.fetch = .command i := by
  obtain ⟨hshort, _⟩ | ⟨_, ⟨e, he, hfetch⟩ | ⟨i, _, hfetch⟩⟩ := fetch_cases s
  · omega
  · have hne : e ≠ .incomplete := fun heq => decodeWord_ne_incomplete _ (heq ▸ he)
    exact .inl (by rw [hfetch, if_neg hne])
  · exact .inr ⟨i, hfetch⟩

theorem fetch_of_decode_error {s : State} {e : DecodeError} (hlen : 16 ≤ s.stream.length)
    (h : decode s.stream = .error e) : s.fetch = .illegal := by
  obtain hillegal | ⟨i, hi⟩ := fetch_of_length hlen
  · exact hillegal
  · rw [State.fetch, h] at hi
    cases e <;> cases hi

theorem fetch_of_short {s : State} (h : s.stream.length < 16) : s.fetch = .waiting := by
  obtain ⟨_, hfetch⟩ | ⟨hlen, _⟩ := fetch_cases s
  · exact hfetch
  · omega

/-! ### A step without reset, by phase -/

section Step

variable {s : State} (hr : s.resetRequest = false)
include hr

theorem step_halted (hp : s.phase = .halted) : step s = .fault .halted := by
  simp [step, sequencerStep, hr, hp]

theorem step_payload_waiting {job : Job} {remaining : Nat} (hp : s.phase = .payload job remaining) (h : s.stream = []) :
    step s = .next s := by
  simp [step, sequencerStep, hr, hp, h]

theorem step_payload_pump {job : Job} {remaining : Nat} (hp : s.phase = .payload job remaining) (h : s.stream ≠ []) :
    step s = .next s.pump := by
  simp [step, sequencerStep, hr, hp, h]

theorem step_idle_waiting (hp : s.phase = .idle) (hfetch : s.fetch = .waiting) : step s = .next s := by
  simp [step, sequencerStep, hr, hp, hfetch]

theorem step_illegal (hp : s.phase = .idle) (hfetch : s.fetch = .illegal) :
    step s = .next (s.takeFault .illegalCommand) := by
  simp [step, sequencerStep, hr, hp, hfetch]

theorem step_command {i : Instr} (hp : s.phase = .idle) (hfetch : s.fetch = .command i) : step s = exec i s := by
  simp [step, sequencerStep, hr, hp, hfetch]

end Step

/-! ### Fault entry -/

/-- Settles O23: the fetch finds no command, and the sequencer takes the fault. -/
theorem undecodableDescriptorTakesIllegalCommand : Obligations.UndecodableDescriptorTakesIllegalCommand := by
  unfold Obligations.UndecodableDescriptorTakesIllegalCommand
  intro s e hr hidle hlen hdecode
  exact step_illegal hr hidle (fetch_of_decode_error hlen hdecode)

/-- Settles O24: only a refused descriptor and the fault of a command lead into HALTED, both from IDLE. -/
theorem faultEntryIsPrecise : Obligations.FaultEntryIsPrecise := by
  unfold Obligations.FaultEntryIsPrecise
  intro s t h hhalted
  obtain ⟨_, rfl⟩ | ⟨hr, _⟩ := step_cases s t h
  · cases hhalted
  · cases step_runStep hr h with
    | waits hrun => exact absurd hhalted hrun
    | pumps job remaining hp => exact absurd hhalted (pump_phase_ne_halted hp)
    | illegal hidle _ => exact ⟨hidle, .illegalCommand, rfl⟩
    | command _ i hidle _ hexec =>
      obtain ⟨e, _, rfl⟩ | ⟨_, hrun⟩ := hexec.fault_or_kept
      · exact ⟨hidle, e, rfl⟩
      · exact absurd hhalted (hrun hidle)

/-! ### How a run stands -/

theorem phase_of_faulted {s : State} (h : runStatus s = .faulted) : s.phase = .halted := by
  unfold runStatus at h
  split at h
  · assumption
  · split_ifs at h
  · split_ifs at h

/-- The run waits in PAYLOAD with no byte there, or in IDLE with fewer than the bytes of a descriptor. -/
theorem phase_of_waiting {s : State}
    (h : runStatus s = .waitingDescriptor ∨ runStatus s = .waitingPayload ∨ runStatus s = .drained) :
    (∃ job remaining, s.phase = .payload job remaining ∧ s.stream = []) ∨ (s.phase = .idle ∧ s.stream.length < 16) := by
  unfold runStatus at h
  cases hp : s.phase with
  | halted => simp [hp] at h
  | payload job remaining =>
    refine .inl ⟨job, remaining, rfl, ?_⟩
    by_contra hne
    simp [hp, hne] at h
  | idle =>
    refine .inr ⟨rfl, ?_⟩
    by_contra hlen
    have hne : s.stream ≠ [] := fun hnil => hlen (by simp [hnil])
    simp [hp, hne, hlen] at h

/-- The run goes on in PAYLOAD with some byte there, or in IDLE with a whole descriptor. -/
theorem phase_of_running {s : State} (h : runStatus s = .running) :
    (∃ job remaining, s.phase = .payload job remaining ∧ s.stream ≠ []) ∨ (s.phase = .idle ∧ 16 ≤ s.stream.length) := by
  unfold runStatus at h
  cases hp : s.phase with
  | halted => simp [hp] at h
  | payload job remaining => exact .inl ⟨job, remaining, rfl, by simpa [hp] using h⟩
  | idle =>
    refine .inr ⟨rfl, ?_⟩
    by_contra hlen
    simp only [hp, if_pos (Nat.lt_of_not_le hlen)] at h
    split_ifs at h

/-- A command consumes at least its descriptor. -/
theorem Executed.stream_length_le {s t : State} {i : Instr} (h : Executed s i t) :
    t.stream.length ≤ s.stream.length - 16 := by
  obtain ⟨e, _, rfl⟩ | ⟨ctx32, ctx64, ⟨value, rfl⟩ | ⟨job, len, rfl⟩⟩ := h.ends
  · simp
  · simp [State.withSlots]
  · rw [startPayload_eq, pump_stream rfl, List.length_drop]
    exact (Nat.sub_le _ _).trans List.length_drop.le

/-- With a whole descriptor there a step in IDLE consumes it, whether it is a command or not. -/
theorem step_idle_consumes {s : State} (hr : s.resetRequest = false) (hidle : s.phase = .idle)
    (hlen : 16 ≤ s.stream.length) : ∃ t, step s = .next t ∧ t.stream.length < s.stream.length := by
  obtain hillegal | ⟨i, hi⟩ := fetch_of_length hlen
  · refine ⟨_, step_illegal hr hidle hillegal, ?_⟩
    rw [State.takeFault_stream, List.length_drop]
    omega
  · obtain ⟨t, ht⟩ := exec_next i s
    have hle := (exec_executed i s t ht).stream_length_le
    exact ⟨t, (step_command hr hidle hi).trans ht, by omega⟩

/-- With a payload byte there, and one still to come, a step in PAYLOAD consumes one. -/
theorem step_payload_consumes {s : State} {job : Job} {remaining : Nat} (hr : s.resetRequest = false)
    (hp : s.phase = .payload job remaining) (hpos : 0 < remaining) (hne : s.stream ≠ []) :
    ∃ t, step s = .next t ∧ t.stream.length < s.stream.length := by
  refine ⟨s.pump, step_payload_pump hr hp hne, ?_⟩
  have hlen : 0 < s.stream.length := List.length_pos_of_ne_nil hne
  rw [pump_stream hp, List.length_drop]
  omega

/-- Settles O27: each way a run stands fixes the phase and the bytes there, and these the step. -/
theorem runStatusSaysWhatAStepDoes : Obligations.RunStatusSaysWhatAStepDoes := by
  unfold Obligations.RunStatusSaysWhatAStepDoes
  intro s hr
  refine ⟨fun h => step_halted hr (phase_of_faulted h), fun h => ?_, fun h hinv => ?_⟩
  · obtain ⟨job, remaining, hp, hnil⟩ | ⟨hidle, hlen⟩ := phase_of_waiting h
    · exact step_payload_waiting hr hp hnil
    · exact step_idle_waiting hr hidle (fetch_of_short hlen)
  · obtain ⟨job, remaining, hp, hne⟩ | ⟨hidle, hlen⟩ := phase_of_running h
    · obtain ⟨hpos, _, _⟩ := hinv.payload job remaining hp
      exact step_payload_consumes hr hp hpos hne
    · exact step_idle_consumes hr hidle hlen

end Sys2Proof.Machine
end

section
/-! PROOFS. The cause a command reports, from the rule of each cause, and the completion of a command to which none applies
(60_exceptions.md R191 to R198). -/

namespace Sys2Proof.Machine

open Sys2Proof.Claims

/-! ### What a cause says of the operands -/

section Slots

variable {w : Nat} {slots : List (Slot w)} {c : Nat}

theorem slotInvalid_eq_true (h : slotInvalid slots c = true) : ∃ st, slots[c]? = some ⟨false, st⟩ := by
  unfold slotInvalid at h
  split at h
  next slot hs =>
    obtain ⟨valid, st⟩ := slot
    obtain rfl : valid = false := by simpa using h
    exact ⟨st, hs⟩
  next => cases h

/-- A slot that is there and not invalid is valid. -/
theorem valid_of_slotInvalid_eq_false (hc : c < slots.length) (h : slotInvalid slots c = false) :
    ∃ st, slots[c]? = some ⟨true, st⟩ := by
  obtain ⟨slot, hs⟩ : ∃ slot, slots[c]? = some slot := ⟨_, List.getElem?_eq_getElem hc⟩
  obtain ⟨valid, st⟩ := slot
  obtain rfl : valid = true := by simpa [slotInvalid, hs] using h
  exact ⟨st, hs⟩

theorem slotOverflows_eq {valid : Bool} {st : HashState w} (hs : slots[c]? = some ⟨valid, st⟩) (len : BitVec 32) :
    slotOverflows slots c len = decide (2 ^ 64 ≤ st.totalLength.toNat + len.toNat) := by
  simp [slotOverflows, hs]

end Slots

/-- The seed of XXH32 has a zero high half exactly when it is no InvalidArgument (60_exceptions.md R191). -/
theorem highHalf_eq_zero_iff {imm : Word64} : imm.extractLsb' 32 32 = 0#32 ↔ ¬ 2 ^ 32 ≤ imm.toNat := by
  calc imm.extractLsb' 32 32 = 0#32
      ↔ (seedOperand32 imm).isSome = true := by rw [seedOperand32, Option.isSome_ite]
    _ ↔ ¬ 2 ^ 32 ≤ imm.toNat := by rw [seedOperand32_eq, Option.isSome_ite, Nat.not_le]

theorem lt_of_decide_le_eq_false {a b : Nat} (h : decide (a ≤ b) = false) : b < a :=
  Nat.lt_of_not_le (of_decide_eq_false h)

/-! ### One rule per cause: where it applies and none above it does, it is the fault taken -/

section Causes

variable {s : State} {i : Instr}

theorem exec_badContext (h : badContextApplies s i = true) : exec i s = .next (s.takeFault .badContext) := by
  cases i with
  | init32 c imm => exact (init32ConstructsOrFaults c imm s).1 (of_decide_eq_true h)
  | init64 c imm => exact (init64ConstructsOrFaults c imm s).1 (of_decide_eq_true h)
  | upd32 c len => exact exec_upd32_badContext (of_decide_eq_true h)
  | upd64 c len => exact exec_upd64_badContext (of_decide_eq_true h)
  | dig32 c => exact (dig32RespondsWithDigestOrFaults c s).1 (of_decide_eq_true h)
  | dig64 c => exact (dig64RespondsWithDigestOrFaults c s).1 (of_decide_eq_true h)
  | cpy32 d c => exact exec_cpy32_badContext (by simpa [badContextApplies] using h)
  | cpy64 d c => exact exec_cpy64_badContext (by simpa [badContextApplies] using h)
  | hash32 _ _ | hash64 _ _ | info32 | info64 => cases h

theorem exec_invalidArgument (hbad : badContextApplies s i = false) (h : invalidArgumentApplies i = true) :
    exec i s = .next (s.takeFault .invalidArgument) := by
  have hseed {imm : Word64} (himm : decide (2 ^ 32 ≤ imm.toNat) = true) : imm.extractLsb' 32 32 ≠ 0#32 :=
    fun hzero => highHalf_eq_zero_iff.1 hzero (of_decide_eq_true himm)
  cases i with
  | init32 c imm =>
    obtain ⟨_, hinvalid, _⟩ := init32ConstructsOrFaults c imm s
    exact hinvalid (lt_of_decide_le_eq_false hbad) (hseed h)
  | hash32 len imm => exact exec_hash32_invalidArgument (hseed h)
  | init64 _ _ | upd32 _ _ | upd64 _ _ | dig32 _ | dig64 _ | cpy32 _ _ | cpy64 _ _ | hash64 _ _ | info32 | info64 => cases h

theorem exec_contextInvalid (hbad : badContextApplies s i = false) (h : contextInvalidApplies s i = true) :
    exec i s = .next (s.takeFault .contextInvalid) := by
  cases i with
  | upd32 c len =>
    obtain ⟨st, hs⟩ := slotInvalid_eq_true h
    exact exec_upd32_contextInvalid hs
  | upd64 c len =>
    obtain ⟨st, hs⟩ := slotInvalid_eq_true h
    exact exec_upd64_contextInvalid hs
  | dig32 c =>
    obtain ⟨st, hs⟩ := slotInvalid_eq_true h
    obtain ⟨_, hinvalid, _⟩ := dig32RespondsWithDigestOrFaults c s
    exact hinvalid st hs
  | dig64 c =>
    obtain ⟨st, hs⟩ := slotInvalid_eq_true h
    obtain ⟨_, hinvalid, _⟩ := dig64RespondsWithDigestOrFaults c s
    exact hinvalid st hs
  | cpy32 d c =>
    obtain ⟨st, hs⟩ := slotInvalid_eq_true h
    obtain ⟨hd, _⟩ := Bool.or_eq_false_iff.1 hbad
    exact exec_cpy32_contextInvalid (lt_of_decide_le_eq_false hd) hs
  | cpy64 d c =>
    obtain ⟨st, hs⟩ := slotInvalid_eq_true h
    obtain ⟨hd, _⟩ := Bool.or_eq_false_iff.1 hbad
    exact exec_cpy64_contextInvalid (lt_of_decide_le_eq_false hd) hs
  | init32 _ _ | init64 _ _ | hash32 _ _ | hash64 _ _ | info32 | info64 => cases h

theorem exec_lengthOverflow (hbad : badContextApplies s i = false) (hinvalid : contextInvalidApplies s i = false)
    (h : lengthOverflowApplies s i = true) : exec i s = .next (s.takeFault .lengthOverflow) := by
  cases i with
  | upd32 c len =>
    obtain ⟨st, hs⟩ := valid_of_slotInvalid_eq_false (lt_of_decide_le_eq_false hbad) hinvalid
    exact exec_upd32_lengthOverflow hs (of_decide_eq_true ((slotOverflows_eq hs len).symm.trans h))
  | upd64 c len =>
    obtain ⟨st, hs⟩ := valid_of_slotInvalid_eq_false (lt_of_decide_le_eq_false hbad) hinvalid
    exact exec_upd64_lengthOverflow hs (of_decide_eq_true ((slotOverflows_eq hs len).symm.trans h))
  | init32 _ _ | init64 _ _ | dig32 _ | dig64 _ | cpy32 _ _ | cpy64 _ _ | hash32 _ _ | hash64 _ _ | info32 | info64 =>
    cases h

/-- The causes are tried in the order of 60_exceptions.md R197, so those before the one reported do not apply. -/
theorem exec_of_reportedCause {e : Cause} (h : reportedCause s i = some e) : exec i s = .next (s.takeFault e) := by
  simp only [reportedCause, causePriority, List.find?_cons, causeApplies] at h
  split at h
  next hbad => cases h; exact exec_badContext hbad
  next hbad =>
    split at h
    next harg => cases h; exact exec_invalidArgument hbad harg
    next =>
      split at h
      next hinvalid => cases h; exact exec_contextInvalid hbad hinvalid
      next hinvalid =>
        split at h
        next hover => cases h; exact exec_lengthOverflow hbad hinvalid hover
        next => cases h

/-- Where no cause is reported, none of the four applies. -/
theorem no_cause_of_reportedCause (h : reportedCause s i = none) :
    badContextApplies s i = false ∧ invalidArgumentApplies i = false ∧ contextInvalidApplies s i = false ∧
      lengthOverflowApplies s i = false := by
  rw [reportedCause, List.find?_eq_none] at h
  have hno (e : Cause) (he : e ∈ causePriority) : causeApplies s i e = false := by simpa using h e he
  exact ⟨hno .badContext (by decide), hno .invalidArgument (by decide), hno .contextInvalid (by decide),
    hno .lengthOverflow (by decide)⟩

end Causes

/-- Settles O21: a descriptor that is no command as in O23, and a command by the rule of the first cause that applies. -/
theorem highestPriorityCauseIsReported : Obligations.HighestPriorityCauseIsReported := by
  unfold Obligations.HighestPriorityCauseIsReported
  exact ⟨undecodableDescriptorTakesIllegalCommand, fun _ _ _ => exec_of_reportedCause⟩

/-! ### Completion -/

/-- The command completes: it consumes its descriptor and its payload, changes slots alone, and responds with status 0. -/
def Completes (s : State) (i : Instr) : Prop :=
  ∃ ctx32 ctx64 value, exec i s = .next
    (respondedAfter (s.withSlots ctx32 ctx64) (payloadLength i) (s.stream.drop (16 + payloadLength i)) value)

section Completion

variable {s : State} {i : Instr}

/-- In IDLE a response to a command without payload is one after an empty payload. -/
theorem completes_of_responded (hidle : s.phase = .idle) (hlen : payloadLength i = 0) {ctx32 : List (Slot 32)}
    {ctx64 : List (Slot 64)} {value : Word64}
    (h : exec i s = .next (responded (s.withSlots ctx32 ctx64) value)) : Completes s i := by
  refine ⟨ctx32, ctx64, value, ?_⟩
  rw [h, hlen]
  simp [responded, respondedAfter, State.withSlots, hidle]

/-- A payload that is there stands between the descriptor and the rest of the stream. -/
theorem exists_payload {stream : Bytes} {n : Nat} (h : 16 + n ≤ stream.length) :
    ∃ payload, stream.drop 16 = payload ++ stream.drop (16 + n) ∧ payload.length = n := by
  refine ⟨(stream.drop 16).take n, ?_, ?_⟩
  · rw [← List.drop_drop, List.take_append_drop]
  · rw [List.length_take, List.length_drop]
    omega

/-- A command to which no cause applies, its payload being there, completes. -/
theorem completes_of_no_cause (hidle : s.phase = .idle) (hcause : reportedCause s i = none)
    (hlen : 16 + payloadLength i ≤ s.stream.length) : Completes s i := by
  obtain ⟨hbad, harg, hinvalid, hover⟩ := no_cause_of_reportedCause hcause
  obtain ⟨payload, hstream, hpayload⟩ := exists_payload hlen
  have hseed {imm : Word64} (himm : decide (2 ^ 32 ≤ imm.toNat) = false) : imm.extractLsb' 32 32 = 0#32 :=
    highHalf_eq_zero_iff.2 (of_decide_eq_false himm)
  cases i with
  | init32 c imm =>
    obtain ⟨_, _, hconstruct⟩ := init32ConstructsOrFaults c imm s
    exact completes_of_responded hidle rfl (hconstruct (lt_of_decide_le_eq_false hbad) (hseed harg))
  | init64 c imm =>
    obtain ⟨_, hconstruct⟩ := init64ConstructsOrFaults c imm s
    exact completes_of_responded hidle rfl (hconstruct (lt_of_decide_le_eq_false hbad))
  | upd32 c len =>
    obtain ⟨st, hs⟩ := valid_of_slotInvalid_eq_false (lt_of_decide_le_eq_false hbad) hinvalid
    have hfits := lt_of_decide_le_eq_false ((slotOverflows_eq hs len).symm.trans hover)
    exact ⟨_, _, _, exec_upd32_complete hs hfits hstream hpayload⟩
  | upd64 c len =>
    obtain ⟨st, hs⟩ := valid_of_slotInvalid_eq_false (lt_of_decide_le_eq_false hbad) hinvalid
    have hfits := lt_of_decide_le_eq_false ((slotOverflows_eq hs len).symm.trans hover)
    exact ⟨_, _, _, exec_upd64_complete hs hfits hstream hpayload⟩
  | dig32 c =>
    obtain ⟨st, hs⟩ := valid_of_slotInvalid_eq_false (lt_of_decide_le_eq_false hbad) hinvalid
    obtain ⟨_, _, hdigest⟩ := dig32RespondsWithDigestOrFaults c s
    exact completes_of_responded hidle rfl (hdigest st hs)
  | dig64 c =>
    obtain ⟨st, hs⟩ := valid_of_slotInvalid_eq_false (lt_of_decide_le_eq_false hbad) hinvalid
    obtain ⟨_, _, hdigest⟩ := dig64RespondsWithDigestOrFaults c s
    exact completes_of_responded hidle rfl (hdigest st hs)
  | cpy32 d c =>
    obtain ⟨hd, hc⟩ := Bool.or_eq_false_iff.1 hbad
    obtain ⟨st, hs⟩ := valid_of_slotInvalid_eq_false (lt_of_decide_le_eq_false hc) hinvalid
    exact completes_of_responded hidle rfl (exec_cpy32_copies (lt_of_decide_le_eq_false hd) hs)
  | cpy64 d c =>
    obtain ⟨hd, hc⟩ := Bool.or_eq_false_iff.1 hbad
    obtain ⟨st, hs⟩ := valid_of_slotInvalid_eq_false (lt_of_decide_le_eq_false hc) hinvalid
    exact completes_of_responded hidle rfl (exec_cpy64_copies (lt_of_decide_le_eq_false hd) hs)
  | hash32 len imm =>
    obtain ⟨_, hdigest⟩ := hash32RespondsWithOneShotDigestOrFaults len imm s
    exact ⟨_, _, _, hdigest payload _ (hseed harg) hstream hpayload⟩
  | hash64 len imm => exact ⟨_, _, _, hash64RespondsWithOneShotDigest len imm s payload _ hstream hpayload⟩
  | info32 => exact completes_of_responded hidle rfl (infoRespondsWithAttributeWord s).1
  | info64 => exact completes_of_responded hidle rfl (infoRespondsWithAttributeWord s).2

end Completion

/-- Settles O22: what completing leaves, field by field. -/
theorem commandWithoutCauseCompletes : Obligations.CommandWithoutCauseCompletes := by
  unfold Obligations.CommandWithoutCauseCompletes
  intro s i hidle hcause hlen
  obtain ⟨ctx32, ctx64, value, h⟩ := completes_of_no_cause hidle hcause hlen
  exact ⟨_, value, h, rfl, rfl, rfl, rfl, rfl, rfl⟩

/-! ### Which command raises which fault -/

/-- Slot 0 of each engine is valid and its counter can count no further byte, slot 1 is not valid, and there is no slot 2. -/
def fullCounters : State :=
  { State.reset with
    ctx32 := [⟨true, { HashState.blank 32 with totalLength := 0xFFFFFFFFFFFFFFFF#64 }⟩, Slot.blank 32]
    ctx64 := [⟨true, { HashState.blank 64 with totalLength := 0xFFFFFFFFFFFFFFFF#64 }⟩, Slot.blank 64] }

/-- The slot of `fullCounters` a fault is raised on. -/
def faultySlot : Cause → Nat
  | .badContext => 2
  | .contextInvalid => 1
  | .invalidArgument => 0
  | .lengthOverflow => 0
  | .illegalCommand => 0

/-- The same command with operands that raise `e` on `fullCounters`, if it can raise it: the slot of the fault, one payload
byte, and an XXH32 seed that is no argument. -/
def raiser (e : Cause) : Instr → Instr
  | .init32 _ _ => .init32 (faultySlot e) 0x100000000#64
  | .init64 _ _ => .init64 (faultySlot e) 0#64
  | .upd32 _ _ => .upd32 (faultySlot e) 1#32
  | .upd64 _ _ => .upd64 (faultySlot e) 1#32
  | .dig32 _ => .dig32 (faultySlot e)
  | .dig64 _ => .dig64 (faultySlot e)
  | .cpy32 _ _ => .cpy32 0 (faultySlot e)
  | .cpy64 _ _ => .cpy64 0 (faultySlot e)
  | .hash32 _ _ => .hash32 1#32 0x100000000#64
  | .hash64 _ _ => .hash64 1#32 0#64
  | .info32 => .info32
  | .info64 => .info64

theorem raiser_mnemonic (e : Cause) (i : Instr) : (raiser e i).mnemonic = i.mnemonic := by
  cases i <;> rfl

/-- Slot 2 is out of range, slot 1 is not valid, and on slot 0 the seed or the payload is too large. -/
theorem reportedCause_raiser (i : Instr) : ∀ e ∈ raisable i, reportedCause fullCounters (raiser e i) = some e := by
  cases i <;> simp only [raisable, raiser] <;> decide

/-- Settles O25: a fault taken is one of the row, and `fullCounters` is a state that makes each fault of a row the reported
one. -/
theorem eachCommandRaisesItsFaults : Obligations.EachCommandRaisesItsFaults := by
  unfold Obligations.EachCommandRaisesItsFaults
  refine ⟨fun i s t hidle h hhalted => ?_, fun i e he => ?_⟩
  · obtain hfault | ⟨_, hrun⟩ := (exec_executed i s t h).fault_or_kept
    · exact hfault
    · exact absurd hhalted (hrun hidle)
  · exact ⟨raiser e i, fullCounters, raiser_mnemonic e i, exec_of_reportedCause (reportedCause_raiser i e he)⟩

end Sys2Proof.Machine
end

section
/-! PROOFS. The reset event, and that nothing else leaves HALTED or clears a `valid` bit (70_reset_and_hazards.md R220 to
R222). -/

namespace Sys2Proof.Machine

/-! ### The reset event -/

/-- A requested reset is performed whatever the phase. -/
theorem step_reset {s : State} (hr : s.resetRequest = true) : step s = .next s.applyReset := by
  simp [step, sequencerStep, hr]

theorem valid_of_mem_blanks {w n : Nat} {slot : Slot w} (h : slot ∈ List.replicate n (Slot.blank w)) :
    slot.valid = false := by
  rw [List.eq_of_mem_replicate h]; rfl

/-- Settles O29: the step applies the reset table, whose slots are blank. -/
theorem resetEventReturnsToTheTable : Obligations.ResetEventReturnsToTheTable := by
  unfold Obligations.ResetEventReturnsToTheTable
  intro s
  exact ⟨s.assertReset.applyReset, step_reset rfl, List.length_replicate, List.length_replicate,
    fun _ => valid_of_mem_blanks, fun _ => valid_of_mem_blanks, rfl, rfl, rfl, rfl, rfl, rfl, rfl⟩

/-! ### Valid slots -/

/-- Every valid slot of one context file is still valid in the other. -/
def ValidKept {w : Nat} (slots slots' : List (Slot w)) : Prop :=
  ∀ (c : Nat) (st : HashState w), slots[c]? = some ⟨true, st⟩ → ∃ st' : HashState w, slots'[c]? = some ⟨true, st'⟩

section ValidKept

variable {w : Nat} {slots slots' slots'' : List (Slot w)}

theorem ValidKept.refl : ValidKept slots slots := fun _ st h => ⟨st, h⟩

theorem ValidKept.trans (h : ValidKept slots slots') (h' : ValidKept slots' slots'') : ValidKept slots slots'' := by
  intro c st hst
  obtain ⟨st', hst'⟩ := h c st hst
  exact h' c st' hst'

theorem ValidKept.of_seedKept (h : ∀ c, SeedKept slots slots' c) : ValidKept slots slots' := by
  intro c st hst
  obtain ⟨st', hst', -⟩ := h c st hst
  exact ⟨st', hst'⟩

/-- Writing a valid slot. -/
theorem ValidKept.set (c : Nat) (st : HashState w) : ValidKept slots (slots.set c ⟨true, st⟩) := by
  intro d st' hd
  obtain ⟨hlt, -⟩ := List.getElem?_eq_some_iff.mp hd
  by_cases hcd : c = d
  · subst hcd; exact ⟨st, List.getElem?_set_self hlt⟩
  · exact ⟨st', (List.getElem?_set_ne hcd).trans hd⟩

/-- Changing the Hash State of a slot. -/
theorem ValidKept.modify (c : Nat) (f : HashState w → HashState w) :
    ValidKept slots (slots.modify c fun slot => { slot with st := f slot.st }) :=
  fun _ st hd => ⟨_, (getElem?_modify_valid f).mpr ⟨st, hd, rfl⟩⟩

end ValidKept

theorem ValidKept.startPayload32 {s : State} {job : Job} {len : Nat} {slots : List (Slot 32)}
    (h : ValidKept slots s.ctx32) : ValidKept slots (s.startPayload job len).ctx32 :=
  h.trans (.of_seedKept (pump_seedKept32 (s := s.inPayload job len) rfl))

theorem ValidKept.startPayload64 {s : State} {job : Job} {len : Nat} {slots : List (Slot 64)}
    (h : ValidKept slots s.ctx64) : ValidKept slots (s.startPayload job len).ctx64 :=
  h.trans (.of_seedKept (pump_seedKept64 (s := s.inPayload job len) rfl))

/-- No command clears a `valid` bit: INIT and CPY set one, UPD changes a Hash State, and the others write no slot. -/
theorem Executed.validKept {s t : State} {i : Instr} (h : Executed s i t) :
    ValidKept s.ctx32 t.ctx32 ∧ ValidKept s.ctx64 t.ctx64 := by
  cases h with
  | fault _ e _ => exact ⟨.refl, .refl⟩
  | wrote32 _ c st _ _ => exact ⟨.set c st, .refl⟩
  | wrote64 _ c st _ _ => exact ⟨.refl, .set c st⟩
  | responded _ value _ _ _ => exact ⟨.refl, .refl⟩
  | upd32 c len st _ _ => exact ⟨.startPayload32 (.modify c (advance · (len.setWidth 64))), .startPayload64 .refl⟩
  | upd64 c len st _ _ => exact ⟨.startPayload32 .refl, .startPayload64 (.modify c (advance · (len.setWidth 64)))⟩
  | hash32 len imm seed _ => exact ⟨.startPayload32 .refl, .startPayload64 .refl⟩
  | hash64 len imm => exact ⟨.startPayload32 .refl, .startPayload64 .refl⟩

theorem RunStep.validKept {s t : State} (h : RunStep s t) : ValidKept s.ctx32 t.ctx32 ∧ ValidKept s.ctx64 t.ctx64 := by
  cases h with
  | waits _ => exact ⟨.refl, .refl⟩
  | pumps job remaining hp => exact ⟨.of_seedKept (pump_seedKept32 hp), .of_seedKept (pump_seedKept64 hp)⟩
  | illegal _ _ => exact ⟨.refl, .refl⟩
  | command _ i _ _ hexec => exact hexec.validKept

theorem RunStep.phase_ne_halted {s t : State} (h : RunStep s t) : s.phase ≠ .halted := by
  cases h with
  | waits hrun => exact hrun
  | pumps job remaining hp => simp [hp]
  | illegal hidle _ => simp [hidle]
  | command _ i hidle _ _ => simp [hidle]

/-- Settles O30: the reset event comes first in a step, and a step without it starts in IDLE or PAYLOAD and clears no `valid`
bit. -/
theorem onlyResetLeavesHaltedOrClearsValid : Obligations.OnlyResetLeavesHaltedOrClearsValid := by
  unfold Obligations.OnlyResetLeavesHaltedOrClearsValid
  refine ⟨fun s => ⟨step_reset rfl, rfl⟩, fun s t hr h => ?_⟩
  have hstep := step_runStep hr h
  obtain ⟨h32, h64⟩ := hstep.validKept
  exact ⟨hstep.phase_ne_halted, h32, h64⟩

end Sys2Proof.Machine
end
